-- ==== Sys2Proof/Word.lean ====
section
/-! DEFINITION. The word types of the ookDecoder CORE: a buffer byte, a pulse duration and a command word. -/

namespace Sys2Proof

/-- A BitBuffer byte or an 8-bit register value (R6). -/
abbrev Byte := BitVec 8

/-- A pulse duration, an unsigned 32-bit number of microseconds (R6). -/
abbrev Duration := BitVec 32

/-- A command word of 40 bits: OPC in [39:32], OPD in [31:0] (R90). -/
abbrev CommandWord := BitVec 40

end Sys2Proof
end

