-- ==== Sys2Proof/Syntax.lean ====
section
/-! DEFINITION. The thirteen commands of spec/opcode_table.json (R92) with their operands (R91). Each operand has exactly
the width its form gives it, so a term of this type is a command and nothing else. -/

namespace Sys2Proof

inductive Instr where
  /-- FEED D: present one pulse duration (R110). -/
  | feed (d : Duration)
  /-- RESET: discard any frame in progress (R112). -/
  | reset
  /-- GETFRAME: return the completed frame (R114). -/
  | getframe
  /-- READOUT RC: return the reading record, and clear DIRTY when RC = 1 (R116). -/
  | readout (rc : Bool)
  /-- ACK K: clear the DIRTY bits of a mask (R118). -/
  | ack (k : BitVec 8)
  /-- SEED ID, TXW, RCLR: seed the running counters (R120). -/
  | seed (id : BitVec 16) (txw rclr : Bool)
  /-- READREG K: read one register (R126). -/
  | readreg (k : BitVec 8)
  /-- LUT K: query the CAL LUT (R122). -/
  | lut (k : BitVec 8)
  /-- ACC_PUSH B (R152). -/
  | accPush (b : Bool)
  /-- ACC_PUSHM B (R154). -/
  | accPushm (b : Bool)
  /-- ACC_REVBITS (R156). -/
  | accRevbits
  /-- ACC_REVNIB (R158). -/
  | accRevnib
  /-- ACC_ALIGN K (R160). -/
  | accAlign (k : BitVec 8)
  deriving DecidableEq, Repr, Inhabited

end Sys2Proof
end

