-- ==== Sys2Proof/Decode.lean ====
section
/-! DEFINITION. The command decoder (30_encoding.md R90 to R94), total on every 40-bit word and rejecting by name; then the
encoder, written from the same tables; then the opcode table itself, row by row, as spec/opcode_table.json gives it. -/

namespace Sys2Proof

/-- Why a word is illegal (R93): its OPC is not in the opcode map, or a reserved operand bit of its form is not 0. -/
inductive Reject where
  | unknownOpcode (opc : BitVec 8)
  | reservedBits  (opc : BitVec 8)
  deriving DecidableEq, Repr

/-- The concatenation `{hi, lo}` of R8, `hi` in the upper bits, as a value of `w` bits. -/
def joinBits {m n : Nat} (w : Nat) (hi : BitVec m) (lo : BitVec n) : BitVec w :=
  (hi.setWidth w <<< n) ||| lo.setWidth w

/-- OPC, bits [39:32] of a command word (R90). -/
def opcOf (w : CommandWord) : BitVec 8 := w.extractLsb' 32 8

/-- OPD, bits [31:0] of a command word (R90). -/
def opdOf (w : CommandWord) : BitVec 32 := w.extractLsb' 0 32

/-! The operand forms of R91. Each refuses a nonzero reserved bit. -/

/-- Form C0: no operand; OPD[31:0] is reserved. -/
def formC0 (opc : BitVec 8) (opd : BitVec 32) (i : Instr) : Except Reject Instr :=
  if opd = 0 then .ok i else .error (.reservedBits opc)

/-- Form CD: OPD[31:0] is the duration; nothing is reserved. -/
def formCD (opd : BitVec 32) (mk : Duration → Instr) : Except Reject Instr :=
  .ok (mk opd)

/-- Form C1: OPD[0] is the bit; OPD[31:1] is reserved. -/
def formC1 (opc : BitVec 8) (opd : BitVec 32) (mk : Bool → Instr) : Except Reject Instr :=
  if opd.extractLsb' 1 31 = 0 then .ok (mk (opd.getLsbD 0)) else .error (.reservedBits opc)

/-- Form C8: OPD[7:0] is a byte; OPD[31:8] is reserved. -/
def formC8 (opc : BitVec 8) (opd : BitVec 32) (mk : BitVec 8 → Instr) : Except Reject Instr :=
  if opd.extractLsb' 8 24 = 0 then .ok (mk (opd.extractLsb' 0 8)) else .error (.reservedBits opc)

/-- Form CS: OPD[15:0] is ID, OPD[16] is TXW, OPD[17] is RCLR; OPD[31:18] is reserved. -/
def formCS (opc : BitVec 8) (opd : BitVec 32) (mk : BitVec 16 → Bool → Bool → Instr) : Except Reject Instr :=
  if opd.extractLsb' 18 14 = 0 then .ok (mk (opd.extractLsb' 0 16) (opd.getLsbD 16) (opd.getLsbD 17))
  else .error (.reservedBits opc)

/-- The opcode map of R92. -/
def decodeParts (opc : BitVec 8) (opd : BitVec 32) : Except Reject Instr :=
  match opc with
  | 0x01#8 => formCD opd .feed
  | 0x02#8 => formC0 opc opd .reset
  | 0x03#8 => formC0 opc opd .getframe
  | 0x04#8 => formC1 opc opd .readout
  | 0x05#8 => formC8 opc opd .ack
  | 0x06#8 => formCS opc opd .seed
  | 0x07#8 => formC8 opc opd .readreg
  | 0x08#8 => formC8 opc opd .lut
  | 0x10#8 => formC1 opc opd .accPush
  | 0x11#8 => formC1 opc opd .accPushm
  | 0x12#8 => formC0 opc opd .accRevbits
  | 0x13#8 => formC0 opc opd .accRevnib
  | 0x14#8 => formC8 opc opd .accAlign
  | _ => .error (.unknownOpcode opc)

/-- Decoding of a command word (R93): the command it stands for, or why it is illegal. -/
def decode (w : CommandWord) : Except Reject Instr :=
  decodeParts (opcOf w) (opdOf w)

/-- The host's view of `decode`: an instruction of `nbits` bits whose bits are `w`, numbered as spec/opcode_table.json
numbers them; the bits above `nbits` are 0. A command is one 40-bit word delivered whole (R90), so nothing is laid out in bytes. -/
def decodeTableWord (nbits w : Nat) : Option Instr :=
  (decode (BitVec.ofNat 40 (w % 2 ^ nbits))).toOption

/-! ## Encoder -/

/-- A word from its two fields: `(OPC << 32) | OPD` (R99). -/
def wordOf (opc : BitVec 8) (opd : BitVec 32) : CommandWord := joinBits 40 opc opd

/-- OPC of each command (R92). -/
def Instr.opc : Instr → BitVec 8
  | .feed _ => 0x01
  | .reset => 0x02
  | .getframe => 0x03
  | .readout _ => 0x04
  | .ack _ => 0x05
  | .seed _ _ _ => 0x06
  | .readreg _ => 0x07
  | .lut _ => 0x08
  | .accPush _ => 0x10
  | .accPushm _ => 0x11
  | .accRevbits => 0x12
  | .accRevnib => 0x13
  | .accAlign _ => 0x14

/-- OPD of form C1 (R91). -/
def opdC1 (b : Bool) : BitVec 32 := (BitVec.ofBool b).setWidth 32

/-- OPD of form C8 (R91). -/
def opdC8 (k : BitVec 8) : BitVec 32 := k.setWidth 32

/-- OPD of form CS (R91). -/
def opdCS (id : BitVec 16) (txw rclr : Bool) : BitVec 32 :=
  joinBits 32 (joinBits 2 (BitVec.ofBool rclr) (BitVec.ofBool txw)) id

/-- OPD of each command, its reserved bits 0 (R91, R92). -/
def Instr.opd : Instr → BitVec 32
  | .feed d => d
  | .reset => 0
  | .getframe => 0
  | .readout rc => opdC1 rc
  | .ack k => opdC8 k
  | .seed id txw rclr => opdCS id txw rclr
  | .readreg k => opdC8 k
  | .lut k => opdC8 k
  | .accPush b => opdC1 b
  | .accPushm b => opdC1 b
  | .accRevbits => 0
  | .accRevnib => 0
  | .accAlign k => opdC8 k

/-- The word of a command (R90, R91, R92). -/
def encode (i : Instr) : CommandWord := wordOf i.opc i.opd

/-! ## The opcode table -/

/-- One row of spec/opcode_table.json: a word is the row's iff `(w & mask) == fixed` (R93). -/
structure OpRow where
  mnemonic : String
  fixed    : CommandWord
  mask     : CommandWord
  deriving DecidableEq, Repr

/-- The test of R93 for one row. -/
def OpRow.matchesWord (r : OpRow) (w : CommandWord) : Bool := decide (w &&& r.mask = r.fixed)

/-- spec/opcode_table.json, row by row, copied from the table and not from the decoder. -/
def opcodeTable : List OpRow :=
  [ ⟨"FEED", 0x0100000000, 0xFF00000000⟩,
    ⟨"RESET", 0x0200000000, 0xFFFFFFFFFF⟩,
    ⟨"GETFRAME", 0x0300000000, 0xFFFFFFFFFF⟩,
    ⟨"READOUT", 0x0400000000, 0xFFFFFFFFFE⟩,
    ⟨"ACK", 0x0500000000, 0xFFFFFFFF00⟩,
    ⟨"SEED", 0x0600000000, 0xFFFFFC0000⟩,
    ⟨"READREG", 0x0700000000, 0xFFFFFFFF00⟩ ] ++
  [ ⟨"LUT", 0x0800000000, 0xFFFFFFFF00⟩,
    ⟨"ACC_PUSH", 0x1000000000, 0xFFFFFFFFFE⟩,
    ⟨"ACC_PUSHM", 0x1100000000, 0xFFFFFFFFFE⟩,
    ⟨"ACC_REVBITS", 0x1200000000, 0xFFFFFFFFFF⟩,
    ⟨"ACC_REVNIB", 0x1300000000, 0xFFFFFFFFFF⟩,
    ⟨"ACC_ALIGN", 0x1400000000, 0xFFFFFFFF00⟩ ]

/-- The mnemonic of each command (R92). -/
def Instr.mnemonic : Instr → String
  | .feed _ => "FEED"
  | .reset => "RESET"
  | .getframe => "GETFRAME"
  | .readout _ => "READOUT"
  | .ack _ => "ACK"
  | .seed _ _ _ => "SEED"
  | .readreg _ => "READREG"
  | .lut _ => "LUT"
  | .accPush _ => "ACC_PUSH"
  | .accPushm _ => "ACC_PUSHM"
  | .accRevbits => "ACC_REVBITS"
  | .accRevnib => "ACC_REVNIB"
  | .accAlign _ => "ACC_ALIGN"

end Sys2Proof
end

