-- ==== Sys2Proof/Config.lean ====
section
/-! DEFINITION. The implementation parameters of one instance (00_scope.md R5) as plain data, and the OPEN parameters
and free values as constants without a value. The reference values of R5 stand in Machine/Parameters.lean. -/

namespace Sys2Proof

/-- The protocol variant of an instance, hard-wired (R22): PROBE = 0, STATION = 1, POWER = 2; the value 3 is never built. -/
inductive Proto where
  | probe
  | station
  | power
  deriving DecidableEq, Repr, Inhabited

/-- A half-open window `[lo, hi)` of durations (R9). -/
structure Window where
  lo : Duration
  hi : Duration
  deriving DecidableEq, Repr, Inhabited

/-- One anchor pair of the CAL LUT (R260): a raw code (u8) and a value (int8, held in two's complement). -/
structure Anchor where
  code  : BitVec 8
  value : BitVec 8
  deriving DecidableEq, Repr, Inhabited

/-- CAL_TABLE (R43, R260): the anchors in order. The first one has a field of its own, so a table is never empty. -/
structure CalTable where
  first : Anchor
  rest  : List Anchor
  deriving DecidableEq, Repr, Inhabited

/-- All the anchors of a table, x_0 first. -/
def CalTable.anchors (t : CalTable) : List Anchor :=
  t.first :: t.rest

/-- The parameters of one instance (R5), each one an argument of the model. They are hard-wired: no rule writes one. -/
structure Params where
  /-- PROTO (R22). -/
  proto      : Proto
  /-- CAP, the BitBuffer capacity in bytes (R23). -/
  cap        : BitVec 8
  /-- [PR_SYNC_LO, PR_SYNC_HI). -/
  prSync     : Window
  /-- [PR_LONG_LO, PR_LONG_HI). -/
  prLong     : Window
  /-- [PR_SHORT_LO, PR_SHORT_HI). -/
  prShort    : Window
  /-- PR_PRE_N: sync pulses counted in Preamble before the data pulse. -/
  prPreN     : BitVec 8
  /-- PR_PHASES: probe phase edges per frame. -/
  prPhases   : BitVec 8
  /-- [ST_SYNC_LO, ST_SYNC_HI). -/
  stSync     : Window
  /-- [ST_ONE_LO, ST_ONE_HI). -/
  stOne      : Window
  /-- [ST_ZERO_LO, ST_ZERO_HI). -/
  stZero     : Window
  /-- ST_PRE_MIN: the Preamble count that must be exceeded. -/
  stPreMin   : BitVec 8
  /-- ST_BITS: station bits per frame. -/
  stBits     : BitVec 16
  /-- PM_SHORT: a pulse is short iff d < PM_SHORT. -/
  pmShort    : Duration
  /-- PM_DELIM: a pulse is a delimiter iff d > PM_DELIM. -/
  pmDelim    : Duration
  /-- PM_PRE_MIN: the least Preamble count. -/
  pmPreMin   : BitVec 8
  /-- PM_PULSES: the framing pulse index that completes a frame. -/
  pmPulses   : BitVec 8
  /-- REV_PROBE, REV_STATION, REV_POWER: reverse the bit order at Complete (90_conflicts.md C2). -/
  revProbe   : Bool
  revStation : Bool
  revPower   : Bool
  /-- ST_TYPE_A and ST_TYPE_B, the station message-type codes (R215). -/
  stTypeA    : BitVec 6
  stTypeB    : BitVec 6
  /-- PM_BATT_MASK (R242), OPEN. -/
  pmBattMask : BitVec 8
  /-- TXID_SEED, the POR value of TXID in a POWER instance (R41), OPEN. -/
  txidSeed   : BitVec 16
  /-- KH, the meter constant, a positive rational khNum / khDen used only by the conversions of R268, OPEN. -/
  khNum      : Nat
  khDen      : Nat
  /-- CAL_TABLE (R260), OPEN. -/
  calTable   : CalTable
  /-- T_FEED, the greatest time a FEED takes, in microseconds (R318), OPEN; no rule of the model depends on it
  (assumption 7). -/
  tFeed      : Nat
  deriving DecidableEq, Repr, Inhabited

/-! The OPEN parameters of R5 have no value in the spec: constants without a value (assumption 2). -/

opaque Config.openCalFirst : BitVec 8 × BitVec 8
opaque Config.openCalRest  : List (BitVec 8 × BitVec 8)
opaque Config.openBattMask : BitVec 8
opaque Config.openTxidSeed : BitVec 16
opaque Config.openKhNum    : Nat
opaque Config.openKhDen    : Nat
opaque Config.openTFeed    : Nat

/-- The value PHASE takes when it is counted up from 255, which no rule states: a free value (assumption 4). -/
opaque Config.freePhase : Nat → BitVec 8

end Sys2Proof
end

