-- ==== Sys2Proof/WellFormed.lean ====
section
/-! DEFINITION. What is well formed: the CAL LUT (R260), the parameters of an instance (R5, R305) and a command. -/

namespace Sys2Proof

/-- R260.3: the codes are strictly ascending. -/
def CalTable.codesAscend (t : CalTable) : Bool :=
  (t.anchors.zip t.rest).all fun (a, b) => decide (a.code < b.code)

/-- R260.1: N >= 2. -/
def CalTable.atLeastTwo (t : CalTable) : Bool :=
  !t.rest.isEmpty

/-- R260.4: v_0 = -49 and x_0 < 10. -/
def CalTable.firstOk (t : CalTable) : Bool :=
  decide (t.first.value.toInt = -49) && decide (t.first.code < 10)

/-- R260.5: (10, -42) and (20, -22) are consecutive anchors. -/
def CalTable.middleOk (t : CalTable) : Bool :=
  (t.anchors.zip t.rest).any fun (a, b) =>
    decide (a.code = 10 ∧ a.value.toInt = -42 ∧ b.code = 20 ∧ b.value.toInt = -22)

/-- The anchor with index N-1. -/
def CalTable.last (t : CalTable) : Anchor :=
  t.rest.getLastD t.first

/-- R260.6: v_{N-1} = 127 and x_{N-1} < 200. -/
def CalTable.lastOk (t : CalTable) : Bool :=
  decide (t.last.value.toInt = 127) && decide (t.last.code < 200)

/-- Every constraint of R260. -/
def CalTable.wf (t : CalTable) : Bool :=
  t.atLeastTwo && t.codesAscend && t.firstOk && t.middleOk && t.lastOk

/-- R5: 8 <= CAP <= 224. -/
def Params.capOk (p : Params) : Bool :=
  decide (8 ≤ p.cap) && decide (p.cap ≤ 224)

/-- R5: PM_BATT_MASK & 0x03 = 0. -/
def Params.maskOk (p : Params) : Bool :=
  decide (p.pmBattMask &&& 3 = 0)

/-- R5: KH is a positive rational. -/
def Params.khOk (p : Params) : Bool :=
  decide (0 < p.khNum) && decide (0 < p.khDen)

/-- The constraints the spec puts on the parameters of an instance (R5, R260, R305). -/
def Params.wf (p : Params) : Bool :=
  p.capOk && p.maskOk && p.khOk && p.calTable.wf

/-- A command is well formed as it stands: R91 bounds every operand by its width, and the types of `Instr` are those
widths. What the spec refuses is a WORD, and Decode.lean refuses it (R93). -/
def Instr.wf : Instr → Bool
  | .feed _ => true
  | .reset => true
  | .getframe => true
  | .readout _ => true
  | .ack _ => true
  | .seed _ _ _ => true
  | .readreg _ => true
  | .lut _ => true
  | .accPush _ => true
  | .accPushm _ => true
  | .accRevbits => true
  | .accRevnib => true
  | .accAlign _ => true

end Sys2Proof
end

