-- ==== Sys2Proof/Machine/Parameters.lean ====
section
/-! DEFINITION. The parameter values of 00_scope.md R5: the given ones as the table gives them, the OPEN ones as constants
without a value that meet the constraints of R5 and R260; and the witness values the spec's own vectors are stated under. -/

namespace Sys2Proof

/-- The code of PROTO (R22). -/
def Proto.code : Proto → BitVec 2
  | .probe => 0
  | .station => 1
  | .power => 2

/-- The witness table W of R261. It is not the hardware's table. -/
def CalTable.witness : CalTable :=
  { first := ⟨0, BitVec.ofInt 8 (-49)⟩
    rest := [⟨10, BitVec.ofInt 8 (-42)⟩, ⟨20, BitVec.ofInt 8 (-22)⟩, ⟨30, 10⟩, ⟨40, 5⟩, ⟨190, 127⟩] }

/-- The table that the two OPEN constants of Config.lean spell. -/
def CalTable.openTable : CalTable :=
  { first := ⟨Config.openCalFirst.1, Config.openCalFirst.2⟩
    rest := Config.openCalRest.map fun a => ⟨a.1, a.2⟩ }

/-- CAL_TABLE of the reset instance: an unknown table that meets R260. Every table that meets R260 is a value this constant
may have; an unknown table that breaks R260 is replaced by W, so that the constraints hold of it (assumption 2). -/
def CalTable.unknown : CalTable :=
  if CalTable.openTable.wf then CalTable.openTable else CalTable.witness

/-- The reference values of R5 (the two type codes are the spec's general knowledge, assumption 13), for an instance of protocol `proto` with the OPEN parameters as arguments. -/
def Params.reference (proto : Proto) (battMask : BitVec 8) (txidSeed : BitVec 16) (khNum khDen : Nat)
    (calTable : CalTable) (tFeed : Nat) : Params :=
  { proto := proto
    cap := 25
    prSync := ⟨500, 700⟩
    prLong := ⟨300, 500⟩
    prShort := ⟨100, 300⟩
    prPreN := 7
    prPhases := 112
    stSync := ⟨575, 725⟩
    stOne := ⟨375, 525⟩
    stZero := ⟨175, 325⟩
    stPreMin := 3
    stBits := 64
    pmShort := 750
    pmDelim := 1250
    pmPreMin := 8
    pmPulses := 64
    revProbe := true
    revStation := true
    revPower := true
    stTypeA := 0x31
    stTypeB := 0x38
    pmBattMask := battMask
    txidSeed := txidSeed
    khNum := khNum
    khDen := khDen
    calTable := calTable
    tFeed := tFeed }

/-- The parameters of the reset instance: the values R5 gives, the OPEN ones unknown, PROTO = PROBE (assumption 1). -/
def Params.unknown : Params :=
  Params.reference .probe (Config.openBattMask &&& 0xFC) Config.openTxidSeed (Config.openKhNum + 1) (Config.openKhDen + 1)
    CalTable.unknown Config.openTFeed

/-- An instance under the witness values of 95_test_vectors.md: W, PM_BATT_MASK = 0x04, TXID_SEED = 0. KH and T_FEED have
no witness value there; this one takes KH = 1 and T_FEED = 0. -/
def Params.vectors (proto : Proto) : Params :=
  Params.reference proto 0x04 0 1 1 CalTable.witness 0

/-- The parameters that R5 gives a value, CAP apart, have that value: what the rules about reference frames rest on. -/
def Params.isReference (p : Params) : Bool :=
  decide (p = { Params.reference p.proto p.pmBattMask p.txidSeed p.khNum p.khDen p.calTable p.tFeed with cap := p.cap })

/-- REV_<PROTO> (R124). -/
def Params.rev (p : Params) : Bool :=
  match p.proto with
  | .probe => p.revProbe
  | .station => p.revStation
  | .power => p.revPower

end Sys2Proof
end

