-- ==== Sys2Proof/Machine/State.lean ====
section
/-! DEFINITION. The state of one instance (10_state.md R20 to R45) as plain data, the response records of R96, the reasons a
step could stop, power-on reset (R300) and `State.reset`. -/

namespace Sys2Proof.Machine

/-- DSTATE (R24): Idle = 0, Preamble = 1, Framing = 2, Complete = 3. -/
inductive DState where
  | idle
  | preamble
  | framing
  | complete
  deriving DecidableEq, Repr, Inhabited

/-- HICLASS (R36) and the class of a probe pulse (R171): NONE = 0, SHORT = 1, LONG = 2; the value 3 is never written. -/
inductive HiClass where
  | none
  | short
  | long
  deriving DecidableEq, Repr, Inhabited

/-- The event codes 0 to 8 of R280; the codes 9 to 15 are never produced. -/
inductive Event where
  | none
  | outOfWindow
  | preambleMismatch
  | bitMismatch
  | overflow
  | frameOk
  | checkFail
  | framePartial
  | idCaptured
  deriving DecidableEq, Repr, Inhabited

/-- The BitAccumulator: BUF (R25), POS (R26), NBITS (R27), TOTAL (R28), TOGGLE (R29). -/
structure Accumulator where
  /-- BUF[0..CAP-1], the byte with index 0 first. -/
  buf    : List Byte
  pos    : BitVec 8
  nbits  : BitVec 3
  total  : BitVec 16
  toggle : Bool
  deriving DecidableEq, Repr, Inhabited

/-- The decoder: DSTATE (R24), PCOUNT (R30), PHASE (R35), HICLASS (R36). -/
structure Decoder where
  dstate  : DState
  pcount  : BitVec 8
  phase   : BitVec 8
  hiclass : HiClass
  deriving DecidableEq, Repr, Inhabited

/-- The PROBE output registers (R38): PR_CHCODE, PR_TRAW. -/
structure ProbeOut where
  chcode : BitVec 2
  traw   : BitVec 11
  deriving DecidableEq, Repr, Inhabited

/-- The STATION output registers (R39): ST_TYPE, ST_WRAW, ST_DIR, ST_RAIN, ST_TRAW, ST_HUM, ST_BATT. -/
structure StationOut where
  type : BitVec 6
  wraw : BitVec 8
  dir  : BitVec 4
  rain : BitVec 14
  traw : BitVec 11
  hum  : BitVec 7
  batt : Bool
  deriving DecidableEq, Repr, Inhabited

/-- The POWER output registers (R40): PM_PINT, PM_TCODE, PM_TCAL (two's complement), PM_BATT, PM_ENERGY. -/
structure PowerOut where
  pint   : BitVec 14
  tcode  : BitVec 8
  tcal   : BitVec 8
  batt   : Bool
  energy : BitVec 14
  deriving DecidableEq, Repr, Inhabited

/-- OutFields(PROTO), the fields a READOUT record holds (R117); the POWER record holds TXID too. -/
inductive OutFields where
  | probe   (o : ProbeOut)
  | station (o : StationOut)
  | power   (txid : BitVec 16) (o : PowerOut)
  deriving DecidableEq, Repr

/-- The response records of R96. `ill` is 1 in `illegal`, which has no other field, and 0 in every other record. How a record
is packed onto wires is left out (assumption 6). -/
inductive Response where
  /-- an illegal word. -/
  | illegal
  /-- RESET, ACK, SEED, ACC_REVBITS, ACC_REVNIB, ACC_ALIGN. -/
  | done
  /-- FEED. -/
  | feed    (ready : Bool) (evt : Event)
  /-- GETFRAME. -/
  | frame   (len : BitVec 8) (bytes : List Byte)
  /-- READOUT. -/
  | reading (proto : Proto) (dirty : BitVec 8) (fields : OutFields)
  /-- READREG. -/
  | reg     (value : BitVec 8)
  /-- LUT: the value is a two's complement number of °C. -/
  | lut     (value : BitVec 8)
  /-- ACC_PUSH, ACC_PUSHM. -/
  | push    (ovf : Bool)
  deriving DecidableEq, Repr

/-- The whole state of one instance. -/
structure State where
  /-- PROTO (R22), CAP (R23), CAL_TABLE (R43) and the other parameters of R5, hard-wired. -/
  params    : Params
  /-- DSTATE, PCOUNT, PHASE, HICLASS. -/
  dec       : Decoder
  /-- BUF, POS, NBITS, TOTAL, TOGGLE. -/
  acc       : Accumulator
  /-- FV (R31). -/
  fv        : Bool
  /-- FLEN (R32). -/
  flen      : BitVec 8
  /-- LAST_EVT (R33). -/
  lastEvt   : Event
  /-- STICKY.ILL (R34); the other bits of STICKY are reserved and read 0. -/
  stickyIll : Bool
  /-- DIRTY (R37). -/
  dirty     : BitVec 8
  /-- the PROBE output registers (R38). -/
  probe     : ProbeOut
  /-- the STATION output registers (R39). -/
  station   : StationOut
  /-- the POWER output registers (R40). -/
  power     : PowerOut
  /-- TXID (R41). -/
  txid      : BitVec 16
  /-- RAIN_BASE and RAIN_VALID (R42). -/
  rainBase  : BitVec 14
  rainValid : Bool
  /-- the command words the host has issued and the block has not executed, oldest first (R80; assumption 3). -/
  commands  : List CommandWord
  /-- the response record of the last command (R96); none before the first one (assumption 3). -/
  response  : Option Response
  /-- the model's own counter of the free values it has drawn (assumption 4). -/
  freeCtr   : Nat
  deriving DecidableEq, Repr

/-- A step never faults: R284 gives every command a defined effect, and 93_implementation_defined.md says of every open
case that it neither faults nor sticks. No constructor, so no meaning can raise one (safe; assumption 16). -/
inductive Fault where
  deriving DecidableEq, Repr

/-- Why a step refuses. -/
inductive Refusal where
  /-- Raised by `exec` alone, for an instruction whose meaning is not written yet; no arm raises it (safe). -/
  | notModelled (mnemonic : String)
  deriving DecidableEq, Repr

/-- Power-on reset (R300) of an instance with the parameters `p`. No step performs it (assumption 15). -/
def State.powerOn (p : Params) : State :=
  { params := p
    dec := { dstate := .idle, pcount := 0, phase := 0, hiclass := .none }
    acc := { buf := List.replicate p.cap.toNat 0, pos := 0, nbits := 0, total := 0, toggle := false }
    fv := false
    flen := 0
    lastEvt := .none
    stickyIll := false
    dirty := 0
    probe := { chcode := 0, traw := 0 }
    station := { type := 0, wraw := 0, dir := 0, rain := 0, traw := 0, hum := 0, batt := false }
    power := { pint := 0, tcode := 0, tcal := 0, batt := false, energy := 0 }
    txid := if p.proto = .power then p.txidSeed else 0
    rainBase := 0
    rainValid := false
    commands := []
    response := none
    freeCtr := 0 }

/-- The machine right after reset: POR of the instance `Params.unknown` (assumptions 1 and 2). -/
def State.reset : State := State.powerOn Params.unknown

end Sys2Proof.Machine
end

