-- ==== Sys2Proof/Machine/Ops.lean ====
section
/-! DEFINITION. The shared operations: the BitBuffer, byte helpers, the registers a protocol hard-wires, `reset()` and Reject
(the block's resync, R286), the illegal command (R283), the response latch, and taking the next command word. -/

namespace Sys2Proof.Machine

/-! ## Byte helpers (R8) -/

/-- `rev8(b)`: the byte whose bit i is `b[7-i]`. -/
def rev8 (b : Byte) : Byte := b.reverse

/-- The two 4-bit halves of a byte swapped (R148). -/
def swapNibbles (b : Byte) : Byte := (b <<< 4) ||| (b >>> 4)

/-- The bit `b` placed at bit `7 - n` of a byte (R142). -/
def bitInByte (b : Bool) (n : BitVec 3) : Byte := if b then (0x80 : Byte) >>> n.toNat else 0

/-! ## The BitBuffer (R25, R70.1)

BUF is the block's only byte store: CAP bytes, addressed 0 to CAP-1. Its one form is the list of its CAP bytes. -/

abbrev Memory := List Byte

/-- The form: exactly CAP bytes. -/
def Memory.wf (cap : BitVec 8) (m : Memory) : Bool := decide (m.length = cap.toNat)

/-- The byte with index `i`; past the end there is no byte and 0 is read (R44: reserved addresses read 0x00; assumption 10). -/
def Memory.read (m : Memory) (i : Nat) : Byte := m.getD i 0

/-- Writes the byte with index `i`; past the end there is no byte to write (assumption 10). -/
def Memory.write (m : Memory) (i : Nat) (v : Byte) : Memory := m.set i v

/-- `for i in 0 .. n-1: BUF[i] <- f(BUF[i])`. -/
def Memory.mapFirst (f : Byte → Byte) (n : Nat) (m : Memory) : Memory :=
  m.mapIdx fun i b => if i < n then f b else b

/-- `{BUF[0], ..., BUF[n-1]}` as one integer, BUF[0] highest (R150). -/
def Memory.toInteger (m : Memory) (n : Nat) : Nat :=
  (m.take n).foldl (fun a b => a * 256 + b.toNat) 0

/-- `for i in 0 .. n-1: BUF[i] <- S[8*(n-1-i)+7 : 8*(n-1-i)]` (R150). -/
def Memory.ofInteger (m : Memory) (n S : Nat) : Memory :=
  m.mapIdx fun i b => if i < n then BitVec.ofNat 8 (S >>> (8 * (n - 1 - i))) else b

/-- `for i in 0 .. k-1 (ascending): BUF[i] <- BUF[i + n]` (R150). A byte is read before the loop writes it, so every read
sees the old byte. -/
def Memory.moveDown (m : Memory) (k n : Nat) : Memory :=
  m.mapIdx fun i b => if i < k then Memory.read m (i + n) else b

/-! ## Registers that a protocol hard-wires to 0 (assumption 11) -/

/-- TXID as it reads (R41): hard-wired to 0 in PROBE and STATION instances. -/
def readTxid (s : State) : BitVec 16 := if s.params.proto = .power then s.txid else 0

/-- A write of TXID (R41): ignored in PROBE and STATION instances. -/
def writeTxid (v : BitVec 16) (s : State) : State := if s.params.proto = .power then { s with txid := v } else s

/-- RAIN_BASE as it reads (R42): hard-wired to 0 in PROBE and POWER instances. -/
def readRainBase (s : State) : BitVec 14 := if s.params.proto = .station then s.rainBase else 0

/-- RAIN_VALID as it reads (R42): hard-wired to 0 in PROBE and POWER instances. -/
def readRainValid (s : State) : Bool := if s.params.proto = .station then s.rainValid else false

/-- A write of RAIN_BASE and RAIN_VALID (R42): ignored in PROBE and POWER instances. -/
def writeRain (base : BitVec 14) (valid : Bool) (s : State) : State :=
  if s.params.proto = .station then { s with rainBase := base, rainValid := valid } else s

/-! ## The resync and the illegal command -/

/-- `reset()` (R140). -/
def softReset (s : State) : State :=
  { s with
    dec := { dstate := .idle, pcount := 0, phase := 0, hiclass := .none }
    acc := { s.acc with pos := 0, nbits := 0, total := 0, toggle := false } }

/-- What a protocol step gives back (R110): the state, `ready` and the event code. -/
structure Fed where
  state : State
  ready : Bool
  evt   : Event
  deriving DecidableEq, Repr

/-- Reject(e) (R113): the resync, the block's nearest analogue of a trap entry (R286). There is nothing to return to (R287). -/
def reject (e : Event) (s : State) : Fed := ⟨softReset s, false, e⟩

/-- BeginFrame() (R125). -/
def beginFrame (s : State) : Fed :=
  let r := softReset s
  ⟨{ r with dec := { r.dec with dstate := .preamble }, fv := false }, false, .none⟩

/-- The response record of a command (R96). -/
def respond (r : Response) (s : State) : State := { s with response := some r }

/-- An illegal word (R98, R283): STICKY.ILL is set, the response is `{ill = 1}`, nothing else changes. -/
def illegalCommand (s : State) : State := respond .illegal { s with stickyIll := true }

/-! ## Counters -/

/-- `PCOUNT <- min(PCOUNT + 1, 255)` (R30). -/
def countPreamble (s : State) : State :=
  { s with dec := { s.dec with pcount := if s.dec.pcount = 255 then 255 else s.dec.pcount + 1 } }

/-- `PHASE <- PHASE + 1` (R174, R204, R234). PHASE has 8 bits and no rule states what 255 + 1 gives: a free value, of which
R204 leaves only the parity known, even after odd (assumption 4). -/
def countPhase (s : State) : State :=
  if s.dec.phase = 255 then
    { s with dec := { s.dec with phase := Config.freePhase s.freeCtr &&& 0xFE }, freeCtr := s.freeCtr + 1 }
  else
    { s with dec := { s.dec with phase := s.dec.phase + 1 } }

/-! ## The command stream (R80) -/

/-- The next command word and the state without it; none where the host has issued no further command. -/
def nextCommand (s : State) : Option (CommandWord × State) :=
  match s.commands with
  | [] => none
  | w :: rest => some (w, { s with commands := rest })

/-- The host issues one more command word, after those it issued before. -/
def issue (w : CommandWord) (s : State) : State := { s with commands := s.commands ++ [w] }

end Sys2Proof.Machine
end

