-- ==== Sys2Proof/Machine/Accumulator.lean ====
section
/-! DEFINITION. The BitAccumulator (41_accumulator.md): its primitives, and the meanings of the five ACC_* commands. -/

namespace Sys2Proof.Machine

/-! ## Primitives -/

/-- pushBit(b) (R142): the state and the overflow flag. -/
def pushBit (b : Bool) (s : State) : State × Bool :=
  if s.acc.pos = s.params.cap then (softReset s, true)
  else
    let cur := if s.acc.nbits = 0 then 0 else Memory.read s.acc.buf s.acc.pos.toNat
    ({ s with acc :=
        { s.acc with
          buf := Memory.write s.acc.buf s.acc.pos.toNat (cur ||| bitInByte b s.acc.nbits)
          total := s.acc.total + 1
          nbits := if s.acc.nbits = 7 then 0 else s.acc.nbits + 1
          pos := if s.acc.nbits = 7 then s.acc.pos + 1 else s.acc.pos } }, false)

/-- pushManchesterBit(v) (R144): `TOGGLE <- TOGGLE ^ v; return pushBit(TOGGLE)`. -/
def pushManchesterBit (v : Bool) (s : State) : State × Bool :=
  let t := xor s.acc.toggle v
  pushBit t { s with acc := { s.acc with toggle := t } }

/-- reverseBitOrder() (R146): completed bytes only. -/
def reverseBitOrder (s : State) : State :=
  { s with acc := { s.acc with buf := Memory.mapFirst rev8 s.acc.pos.toNat s.acc.buf } }

/-- reverseNibbles() (R148): completed bytes only (90_conflicts.md C15). -/
def reverseNibbles (s : State) : State :=
  { s with acc := { s.acc with buf := Memory.mapFirst swapNibbles s.acc.pos.toNat s.acc.buf } }

/-- The first half of alignTail (R150): the whole stream shifts right by `8 - NBITS` and fills its last byte. -/
def alignShift (a : Accumulator) : Accumulator :=
  if a.nbits = 0 then a
  else
    let n := a.pos.toNat + 1
    { a with
      buf := Memory.ofInteger a.buf n (Memory.toInteger a.buf n >>> (8 - a.nbits.toNat))
      pos := a.pos + 1
      nbits := 0 }

/-- The second half of alignTail (R150): only the last `m` bytes remain; `m = 0` means no truncation. -/
def alignTruncate (m : BitVec 8) (a : Accumulator) : Accumulator :=
  if 0 < m ∧ m < a.pos then
    { a with buf := Memory.moveDown a.buf m.toNat (a.pos.toNat - m.toNat), pos := m }
  else a

/-- alignTail(m) (R150), with its last line `TOTAL <- 8 * POS`. -/
def alignTail (m : BitVec 8) (s : State) : State :=
  let a := alignTruncate m (alignShift s.acc)
  { s with acc := { a with total := 8 * a.pos.setWidth 16 } }

/-! ## Commands -/

/-- ACC_PUSH (R152). -/
def execAccPush (b : Bool) (s : State) : Host.Outcome State Fault Refusal :=
  .next (respond (.push (pushBit b s).2) (pushBit b s).1)

/-- ACC_PUSHM (R154). -/
def execAccPushm (b : Bool) (s : State) : Host.Outcome State Fault Refusal :=
  .next (respond (.push (pushManchesterBit b s).2) (pushManchesterBit b s).1)

/-- ACC_REVBITS (R156). -/
def execAccRevbits (s : State) : Host.Outcome State Fault Refusal :=
  .next (respond .done (reverseBitOrder s))

/-- ACC_REVNIB (R158). -/
def execAccRevnib (s : State) : Host.Outcome State Fault Refusal :=
  .next (respond .done (reverseNibbles s))

/-- ACC_ALIGN (R160). -/
def execAccAlign (k : BitVec 8) (s : State) : Host.Outcome State Fault Refusal :=
  .next (respond .done (alignTail k s))

end Sys2Proof.Machine
end

