-- ==== Sys2Proof/Machine/Calibration.lean ====
section
/-! DEFINITION. The CAL LUT (45_calibration.md): Interp, and the meaning of LUT. -/

namespace Sys2Proof.Machine

/-- `a + tdiv((b - a) * (raw - x), (y - x))` (R262) between the anchors `(x, a)` and `(y, b)`, in exact integers. -/
def interpBetween (lo hi : Anchor) (raw : BitVec 8) : Int :=
  lo.value.toInt +
    Int.tdiv ((hi.value.toInt - lo.value.toInt) * ((raw.toNat : Int) - lo.code.toNat))
      ((hi.code.toNat : Int) - lo.code.toNat)

/-- The search of R262 past the anchor `prev`, whose code is less than `raw`: the first anchor whose code is at least `raw`
closes the bracket; past the last anchor there is no extrapolation. -/
def interpAfter (prev : Anchor) (raw : BitVec 8) : List Anchor → Int
  | [] => prev.value.toInt
  | a :: rest => if raw ≤ a.code then interpBetween prev a raw else interpAfter a raw rest

/-- Interp(raw) (R262). -/
def interp (t : CalTable) (raw : BitVec 8) : Int :=
  if raw ≤ t.first.code then t.first.value.toInt else interpAfter t.first raw t.rest

/-- Interp(raw) as 8-bit two's complement (R12, R122). -/
def interpByte (t : CalTable) (raw : BitVec 8) : Byte := BitVec.ofInt 8 (interp t raw)

/-- LUT (R122). -/
def execLut (k : BitVec 8) (s : State) : Host.Outcome State Fault Refusal :=
  .next (respond (.lut (interpByte s.params.calTable k)) s)

end Sys2Proof.Machine
end

