-- ==== Sys2Proof/Machine/Flags.lean ====
section
/-! DEFINITION. The flag computations: DIRTY (R37, R118), the two checksums (R181, R213) and the CRC-8 (R239) that decide
whether a frame validates, and the status bits a completed frame sets (R124). -/

namespace Sys2Proof.Machine

/-! ## DIRTY -/

/-- `DIRTY[i] <- 1`. -/
def setDirty (i : Nat) (s : State) : State := { s with dirty := s.dirty ||| BitVec.twoPow 8 i }

/-- `DIRTY <- DIRTY & ~K` (R118). -/
def clearDirty (k : BitVec 8) (s : State) : State := { s with dirty := s.dirty &&& ~~~k }

/-- The DIRTY bits that a field of the instance's PROTO has (R37); the others are reserved and never set. -/
def dirtyFields : Proto → BitVec 8
  | .probe => 0x03
  | .station => 0x3F
  | .power => 0x1F

/-! ## Integrity checks -/

/-- The sum of the bytes with index 0 to n-1, modulo 256 (R181, R213). -/
def sumBytes (b : Nat → Byte) (n : Nat) : Byte := (List.range n).foldl (fun a k => a + b k) 0

/-- R181: the sum of bytes 0 to 5 is byte 6. -/
def probeSumOk (b : Nat → Byte) : Bool := decide (sumBytes b 6 = b 6)

/-- R213: the sum of bytes 0 to 6 is byte 7 and is not 0. -/
def stationSumOk (b : Nat → Byte) : Bool := decide (sumBytes b 7 = b 7) && decide (sumBytes b 7 ≠ 0)

/-- One round of the 16-bit register of R239: `if d[15] == 1: d <- d ^ 0x8380; d <- (d << 1) mod 2^16`. -/
def crcRound (d : BitVec 16) : BitVec 16 := (if d.getLsbD 15 then d ^^^ 0x8380 else d) <<< 1

/-- One byte of R239: `d <- (c ^ x) << 8`, eight rounds, `c <- d >> 8`. -/
def crcByte (c x : Byte) : Byte :=
  (Nat.iterate crcRound 8 (joinBits 16 (c ^^^ x) 0#8)).extractLsb' 8 8

/-- crc8 (R239), initial value 0x00. -/
def crc8 (x : List Byte) : Byte := x.foldl crcByte 0

/-- CrcOk(a, b, c) (R239): the residue is zero. -/
def crcOk (a b c : Byte) : Bool := decide (crc8 [a, b, c] = 0)

/-! ## The status of a completed frame -/

/-- `DSTATE <- Complete; FV <- 1; FLEN <- POS` (R124). -/
def latchFrame (s : State) : State :=
  { s with dec := { s.dec with dstate := .complete }, fv := true, flen := s.acc.pos }

end Sys2Proof.Machine
end

