-- ==== Sys2Proof/Machine/Operands.lean ====
section
/-! DEFINITION. What an operand says to a rule: the pulse classes of a duration (R9, R171, R201, R231), the register that an
address K names (R44, R72), and the reading record that READOUT returns (R117). The operand forms of R91 are in Decode.lean. -/

namespace Sys2Proof.Machine

/-- `d in [lo, hi)` (R9). -/
def inWindow (w : Window) (d : Duration) : Bool := decide (w.lo ≤ d) && decide (d < w.hi)

/-- PrSync(D) (R171). -/
def prSync (p : Params) (d : Duration) : Bool := inWindow p.prSync d

/-- PrClass(D) (R171). -/
def prClass (p : Params) (d : Duration) : HiClass :=
  if inWindow p.prLong d then .long else if inWindow p.prShort d then .short else .none

/-- StSync(D) (R201). -/
def stSync (p : Params) (d : Duration) : Bool := inWindow p.stSync d

/-- StOne(D) (R201). -/
def stOne (p : Params) (d : Duration) : Bool := inWindow p.stOne d

/-- StZero(D) (R201). -/
def stZero (p : Params) (d : Duration) : Bool := inWindow p.stZero d

/-- PmShort(D) (R231). -/
def pmShort (p : Params) (d : Duration) : Bool := decide (d < p.pmShort)

/-- PmDelim(D) (R231). -/
def pmDelim (p : Params) (d : Duration) : Bool := decide (p.pmDelim < d)

/-! ## The register map of R44 -/

/-- The code of DSTATE (R24). -/
def DState.code : DState → BitVec 2
  | .idle => 0
  | .preamble => 1
  | .framing => 2
  | .complete => 3

/-- The code of HICLASS (R36). -/
def HiClass.code : HiClass → BitVec 2
  | .none => 0
  | .short => 1
  | .long => 2

/-- The code of an event (R280). -/
def Event.code : Event → BitVec 4
  | .none => 0
  | .outOfWindow => 1
  | .preambleMismatch => 2
  | .bitMismatch => 3
  | .overflow => 4
  | .frameOk => 5
  | .checkFail => 6
  | .framePartial => 7
  | .idCaptured => 8

/-- STAT0, register 0x00: [1:0] DSTATE, [3:2] PROTO, [4] FV, [5] TOGGLE, [7:6] HICLASS. -/
def stat0 (s : State) : Byte :=
  joinBits 8 (joinBits 4 (joinBits 3 s.dec.hiclass.code (BitVec.ofBool s.acc.toggle)) (BitVec.ofBool s.fv))
    (joinBits 4 s.params.proto.code s.dec.dstate.code)

/-- STICKY, register 0x09: bit 0 is ILL, [7:1] read 0 (R34). -/
def sticky (s : State) : Byte := (BitVec.ofBool s.stickyIll).setWidth 8

/-- RAIN_HI, register 0x0E: [5:0] RAIN_BASE[13:8], [6] reads 0, [7] RAIN_VALID (R42). -/
def rainHi (s : State) : Byte :=
  joinBits 8 (BitVec.ofBool (readRainValid s)) (joinBits 7 0#1 ((readRainBase s).extractLsb' 8 6))

/-- ReadReg(a) (R72) over the map of R44. A reserved address reads 0x00. -/
def readReg (s : State) (a : BitVec 8) : Byte :=
  match a.toNat with
  | 0x00 => stat0 s
  | 0x01 => s.acc.pos
  | 0x02 => s.acc.nbits.setWidth 8
  | 0x03 => s.acc.total.extractLsb' 0 8
  | 0x04 => s.acc.total.extractLsb' 8 8
  | 0x05 => s.dec.pcount
  | 0x06 => s.dec.phase
  | 0x07 => s.flen
  | 0x08 => s.lastEvt.code.setWidth 8
  | 0x09 => sticky s
  | 0x0A => s.dirty
  | 0x0B => (readTxid s).extractLsb' 0 8
  | 0x0C => (readTxid s).extractLsb' 8 8
  | 0x0D => (readRainBase s).extractLsb' 0 8
  | 0x0E => rainHi s
  | 0x0F => s.params.cap
  | n => if 0x20 ≤ n ∧ n < 0x20 + s.params.cap.toNat then Memory.read s.acc.buf (n - 0x20) else 0

/-! ## Records -/

/-- OutFields(PROTO) (R117). -/
def outFields (s : State) : OutFields :=
  match s.params.proto with
  | .probe => .probe s.probe
  | .station => .station s.station
  | .power => .power (readTxid s) s.power

/-- The frame record of GETFRAME (R114): `len` is FLEN while FV = 1 and 0 otherwise; the bytes are BUF[0..len-1]. -/
def frameRecord (s : State) : Response :=
  let len := if s.fv then s.flen else 0
  .frame len (s.acc.buf.take len.toNat)

/-- The `ill` field of a response record (R96). -/
def Response.ill : Response → Bool
  | .illegal => true
  | .done => false
  | .feed _ _ => false
  | .frame _ _ => false
  | .reading _ _ _ => false
  | .reg _ => false
  | .lut _ => false
  | .push _ => false

end Sys2Proof.Machine
end

