-- ==== Sys2Proof/Machine/Power.lean ====
section
/-! DEFINITION. PowerMeterDecoder (44_powermeter.md): PowerStep without its completion, and Parse_POWER. -/

namespace Sys2Proof.Machine

/-- Extract(corr, lo, hi) (R242), with lo = corr[7:0] and hi = corr[15:8] (R236). -/
def extractPower (corr : BitVec 16) (s : State) : State × Event :=
  let lo := corr.extractLsb' 0 8
  let hi := corr.extractLsb' 8 8
  let field : BitVec 14 := corr.extractLsb' 2 14
  match (lo.extractLsb' 0 2).toNat with
  | 1 =>
    if field = 0 then (s, .framePartial)
    else (setDirty 0 { s with power := { s.power with pint := field } }, .frameOk)
  | 2 =>
    let o := { s.power with
      tcode := hi, tcal := interpByte s.params.calTable hi, batt := decide (lo &&& s.params.pmBattMask ≠ 0) }
    (setDirty 2 (setDirty 1 { s with power := o }), .frameOk)
  | 3 => (setDirty 3 { s with power := { s.power with energy := field } }, .frameOk)
  | _ => (s, .framePartial)

/-- Parse_POWER() (R236): the ID path first (R240), then the corrected path (R241). The marker f[0] is not checked (R243). -/
def parsePower (s : State) : State × Event :=
  let f := Memory.read s.acc.buf
  let raw16 : BitVec 16 := joinBits 16 (f 2) (f 1)
  if crcOk (f 1) (f 2) (f 3) then (setDirty 4 (writeTxid raw16 s), .idCaptured)
  else
    let corr := raw16 - readTxid s
    if crcOk (corr.extractLsb' 0 8) (corr.extractLsb' 8 8) (f 3) = false then (s, .checkFail)
    else extractPower corr s

/-- Idle (R232). -/
def powerIdle (d : Duration) (s : State) : Fed :=
  if pmShort s.params d then beginFrame s else reject .outOfWindow s

/-- Preamble (R233). -/
def powerPreamble (d : Duration) (s : State) : Fed :=
  if pmShort s.params d then ⟨countPreamble s, false, .none⟩
  else if pmDelim s.params d ∧ s.params.pmPreMin ≤ s.dec.pcount then
    ⟨{ s with dec := { s.dec with phase := 0, dstate := .framing } }, false, .none⟩
  else reject .preambleMismatch s

/-- Framing (R234); `complete` is CompleteFrame() (R124). -/
def powerFraming (complete : State → Fed) (d : Duration) (s : State) : Fed :=
  let s0 := countPhase s
  if s0.dec.phase.toNat % 2 = 1 then ⟨s0, false, .none⟩
  else
    let (s1, ovf) := pushBit (pmShort s.params d) s0
    if ovf then ⟨s1, false, .overflow⟩
    else if s1.dec.phase = s.params.pmPulses then complete s1
    else ⟨s1, false, .none⟩

end Sys2Proof.Machine
end

