-- ==== Sys2Proof/Machine/Probe.lean ====
section
/-! DEFINITION. ProbeDecoder (42_probe.md): ProbeStep without its completion, and Parse_PROBE. -/

namespace Sys2Proof.Machine

/-- Parse_PROBE() (R180): validation, then extraction, over the bytes of BUF. -/
def parseProbe (s : State) : State × Event :=
  let b := Memory.read s.acc.buf
  if probeSumOk b = false then (s, .checkFail)
  else
    let traw : BitVec 11 := joinBits 11 ((b 4).extractLsb' 0 4) ((b 5).extractLsb' 0 7)
    let s1 := setDirty 0 { s with probe := { s.probe with traw := traw } }
    let ch := (b 0).extractLsb' 6 2
    if ch = 1 then (s1, .framePartial)
    else (setDirty 1 { s1 with probe := { s1.probe with chcode := ch } }, .frameOk)

/-- Idle (R172). -/
def probeIdle (d : Duration) (s : State) : Fed :=
  if prSync s.params d then beginFrame s else reject .outOfWindow s

/-- Preamble (R173). -/
def probePreamble (d : Duration) (s : State) : Fed :=
  if s.dec.pcount < s.params.prPreN then
    if prSync s.params d then ⟨countPreamble s, false, .none⟩ else reject .preambleMismatch s
  else
    match prClass s.params d with
    | .none => reject .preambleMismatch s
    | c => ⟨{ s with dec := { s.dec with hiclass := c, phase := 1, dstate := .framing } }, false, .none⟩

/-- The bit of a high and a low phase (R174): (LONG, SHORT) is 1, (SHORT, LONG) is 0, no other pair is a bit. -/
def probeBit : HiClass → HiClass → Option Bool
  | .long, .short => some true
  | .short, .long => some false
  | _, _ => none

/-- Framing (R174); `complete` is CompleteFrame() (R124). -/
def probeFraming (complete : State → Fed) (d : Duration) (s : State) : Fed :=
  match prClass s.params d with
  | .none => reject .outOfWindow s
  | c =>
    if s.dec.phase.toNat % 2 = 0 then
      ⟨countPhase { s with dec := { s.dec with hiclass := c } }, false, .none⟩
    else
      match probeBit s.dec.hiclass c with
      | none => reject .bitMismatch s
      | some b =>
        let (s1, ovf) := pushBit b { s with dec := { s.dec with hiclass := .none } }
        if ovf then ⟨s1, false, .overflow⟩
        else
          let s2 := countPhase s1
          if s2.dec.phase = s.params.prPhases then complete s2 else ⟨s2, false, .none⟩

end Sys2Proof.Machine
end

