-- ==== Sys2Proof/Machine/Station.lean ====
section
/-! DEFINITION. StationDecoder (43_station.md): StationStep without its completion, and Parse_STATION. -/

namespace Sys2Proof.Machine

/-- RainStep(c) (R216). -/
def rainStep (c : BitVec 14) (s : State) : State :=
  let s1 :=
    if readRainValid s then setDirty 2 { s with station := { s.station with rain := c - readRainBase s } } else s
  writeRain c true s1

/-- Parse_STATION() (R212). -/
def parseStation (s : State) : State × Event :=
  let b := Memory.read s.acc.buf
  if stationSumOk b = false then (s, .checkFail)
  else
    let wraw : BitVec 8 := joinBits 8 ((b 3).extractLsb' 0 5) ((b 4).extractLsb' 4 3)
    let s1 := setDirty 0 { s with station := { s.station with wraw := wraw } }
    let ty := (b 2).extractLsb' 0 6
    let s2 := { s1 with station := { s1.station with type := ty } }
    if ty = s.params.stTypeA then
      let s3 := setDirty 1 { s2 with station := { s2.station with dir := (b 4).extractLsb' 0 4 } }
      (rainStep (joinBits 14 ((b 5).extractLsb' 0 7) ((b 6).extractLsb' 0 7)) s3, .frameOk)
    else if ty = s.params.stTypeB then
      let traw : BitVec 11 := joinBits 11 ((b 4).extractLsb' 0 4) ((b 5).extractLsb' 0 7)
      let o := { s2.station with traw := traw, hum := (b 6).extractLsb' 0 7, batt := (b 2).getLsbD 6 }
      (setDirty 5 (setDirty 4 (setDirty 3 { s2 with station := o })), .frameOk)
    else (s2, .framePartial)

/-- Idle (R202). -/
def stationIdle (d : Duration) (s : State) : Fed :=
  if stSync s.params d then beginFrame s else reject .outOfWindow s

/-- Preamble (R203). Its push cannot overflow after BeginFrame; with ACC_* bits in the way it can, and the FEED then returns
EV_OVERFLOW with the `reset()` of R142 (R311, 90_conflicts.md C18; assumption 5). -/
def stationPreamble (d : Duration) (s : State) : Fed :=
  if stSync s.params d then ⟨countPreamble s, false, .none⟩
  else if s.params.stPreMin < s.dec.pcount ∧ (stOne s.params d ∨ stZero s.params d) then
    let (s1, ovf) := pushBit (stOne s.params d) s
    if ovf then ⟨s1, false, .overflow⟩
    else ⟨{ s1 with dec := { s1.dec with phase := 1, dstate := .framing } }, false, .none⟩
  else reject .preambleMismatch s

/-- The bit of a high phase (R204): the "1" window first. -/
def stationBit (p : Params) (d : Duration) : Option Bool :=
  if stOne p d then some true else if stZero p d then some false else none

/-- Framing (R204); `complete` is CompleteFrame() (R124). -/
def stationFraming (complete : State → Fed) (d : Duration) (s : State) : Fed :=
  if s.dec.phase.toNat % 2 = 1 then ⟨countPhase s, false, .none⟩
  else
    match stationBit s.params d with
    | none => reject .outOfWindow s
    | some b =>
      let (s1, ovf) := pushBit b s
      if ovf then ⟨s1, false, .overflow⟩
      else
        let s2 := countPhase s1
        if s2.acc.total = s.params.stBits then complete s2 else ⟨s2, false, .none⟩

/-- DIRTAB (R220) in tenths of a degree, the index 0 first. No command reads it; the consumer's conversions do (R294). -/
def dirTab : List Nat :=
  [3150, 2475, 2925, 2700, 3375, 2250, 0, 2025] ++ [675, 1350, 900, 1125, 450, 1575, 225, 1800]

end Sys2Proof.Machine
end

