-- ==== Sys2Proof/Machine/Feed.lean ====
section
/-! DEFINITION. FEED (40_interface.md R110 to R113, R124, R125): completion, the three protocol steps, and its meaning. -/

namespace Sys2Proof.Machine

/-- Parse_<PROTO>() (R124). -/
def parseFrame (s : State) : State × Event :=
  match s.params.proto with
  | .probe => parseProbe s
  | .station => parseStation s
  | .power => parsePower s

/-- `if REV_<PROTO> == 1: reverseBitOrder()` (R124). -/
def reverseAtComplete (s : State) : State := if s.params.rev then reverseBitOrder s else s

/-- CompleteFrame() (R124). -/
def completeFrame (s : State) : Fed :=
  let (t, e) := parseFrame (latchFrame (reverseAtComplete s))
  ⟨t, true, e⟩

/-- ProbeStep(D) (R170). FEED has left Complete before (R111), so that case is Idle's. -/
def probeStep (d : Duration) (s : State) : Fed :=
  match s.dec.dstate with
  | .idle => probeIdle d s
  | .preamble => probePreamble d s
  | .framing => probeFraming completeFrame d s
  | .complete => probeIdle d s

/-- StationStep(D) (R200). -/
def stationStep (d : Duration) (s : State) : Fed :=
  match s.dec.dstate with
  | .idle => stationIdle d s
  | .preamble => stationPreamble d s
  | .framing => stationFraming completeFrame d s
  | .complete => stationIdle d s

/-- PowerStep(D) (R230). -/
def powerStep (d : Duration) (s : State) : Fed :=
  match s.dec.dstate with
  | .idle => powerIdle d s
  | .preamble => powerPreamble d s
  | .framing => powerFraming completeFrame d s
  | .complete => powerIdle d s

/-- The step of the instance's protocol (R110). -/
def protoStep (d : Duration) (s : State) : Fed :=
  match s.params.proto with
  | .probe => probeStep d s
  | .station => stationStep d s
  | .power => powerStep d s

/-- Leaving Complete (R111): `if DSTATE == Complete: reset()`. -/
def leaveComplete (s : State) : State := if s.dec.dstate = .complete then softReset s else s

/-- FEED without its outcome: what the step answers, LAST_EVT not yet written. -/
def feedStep (d : Duration) (s : State) : Fed := protoStep d (leaveComplete s)

/-- FEED (R110). -/
def execFeed (d : Duration) (s : State) : Host.Outcome State Fault Refusal :=
  .next (respond (.feed (feedStep d s).ready (feedStep d s).evt)
    { (feedStep d s).state with lastEvt := (feedStep d s).evt })

end Sys2Proof.Machine
end

