-- ==== Sys2Proof/Machine/Interface.lean ====
section
/-! DEFINITION. The interface commands of 40_interface.md other than FEED and LUT: RESET, GETFRAME, READOUT, ACK, SEED,
READREG. -/

namespace Sys2Proof.Machine

/-- RESET (R112). -/
def execReset (s : State) : Host.Outcome State Fault Refusal :=
  .next (respond .done (softReset s))

/-- GETFRAME (R114). -/
def execGetframe (s : State) : Host.Outcome State Fault Refusal :=
  .next (respond (frameRecord s) s)

/-- READOUT RC (R116): the record first, then DIRTY is cleared when RC = 1. -/
def execReadout (rc : Bool) (s : State) : Host.Outcome State Fault Refusal :=
  .next (respond (.reading s.params.proto s.dirty (outFields s)) (if rc then { s with dirty := 0 } else s))

/-- ACK K (R118). -/
def execAck (k : BitVec 8) (s : State) : Host.Outcome State Fault Refusal :=
  .next (respond .done (clearDirty k s))

/-- The two seeds of R120: TXW in a POWER instance, RCLR in a STATION instance; elsewhere a flag is ignored. -/
def seedCounters (id : BitVec 16) (txw rclr : Bool) (s : State) : State :=
  let s1 := if txw then writeTxid id s else s
  if rclr then writeRain 0 false s1 else s1

/-- SEED ID, TXW, RCLR (R120). -/
def execSeed (id : BitVec 16) (txw rclr : Bool) (s : State) : Host.Outcome State Fault Refusal :=
  .next (respond .done (seedCounters id txw rclr s))

/-- READREG K (R126). -/
def execReadreg (k : BitVec 8) (s : State) : Host.Outcome State Fault Refusal :=
  .next (respond (.reg (readReg s k)) s)

end Sys2Proof.Machine
end

