-- ==== Sys2Proof/Machine/Dispatch.lean ====
section
/-! DEFINITION. The dispatch: one arm per command of R92, each one call of that command's meaning. -/

namespace Sys2Proof.Machine

def exec (i : Instr) (s : State) : Host.Outcome State Fault Refusal :=
  match i with
  | .feed d => Sys2Proof.Machine.execFeed d s
  | .reset => Sys2Proof.Machine.execReset s
  | .getframe => Sys2Proof.Machine.execGetframe s
  | .readout rc => Sys2Proof.Machine.execReadout rc s
  | .ack k => Sys2Proof.Machine.execAck k s
  | .seed id txw rclr => Sys2Proof.Machine.execSeed id txw rclr s
  | .readreg k => Sys2Proof.Machine.execReadreg k s
  | .lut k => Sys2Proof.Machine.execLut k s
  | .accPush b => Sys2Proof.Machine.execAccPush b s
  | .accPushm b => Sys2Proof.Machine.execAccPushm b s
  | .accRevbits => Sys2Proof.Machine.execAccRevbits s
  | .accRevnib => Sys2Proof.Machine.execAccRevnib s
  | .accAlign k => Sys2Proof.Machine.execAccAlign k s

end Sys2Proof.Machine
end

