-- ==== Sys2Proof/Machine/Step.lean ====
section
/-! DEFINITION. One step of the block: the next command word of the host's stream, decoded and executed as one atomic step
(R76, R80, R90). With no command issued the block waits and its state is retained (R291, R295). -/

namespace Sys2Proof.Machine

def step (s : State) : Host.Outcome State Fault Refusal :=
  match nextCommand s with
  | none => .next s
  | some (w, s1) =>
    match decode w with
    | .ok i => exec i s1
    | .error _ => .next (illegalCommand s1)

/-- `s` with the word whose bits are `w` as the next one of the command stream, so that the next step runs it (assumption 3). -/
def State.withFetchWord (s : State) (nbits w : Nat) : State :=
  { s with commands := BitVec.ofNat 40 (w % 2 ^ nbits) :: s.commands }

end Sys2Proof.Machine
end

