-- ==== Sys2Proof/Machine/Assembler.lean ====
section
/-! DEFINITION. The textual form of a command (30_encoding.md R99), with the two pseudo-instructions. The block never sees
text: a host tool turns a line into a word. A line is read as a list of characters (assumption 9). -/

namespace Sys2Proof.Machine

/-- What a line may hold: a command or a pseudo-instruction. -/
inductive AsmLine where
  | command (i : Instr)
  | ackall
  | take
  deriving DecidableEq, Repr

/-- The expansion of a line (R99): ACKALL is `ACK 0xFF`, TAKE is `READOUT 1`. -/
def AsmLine.expand : AsmLine → Instr
  | .command i => i
  | .ackall => .ack 0xFF
  | .take => .readout true

/-- The value of a digit in base 10 or 16. -/
def digitValue (base : Nat) (c : Char) : Option Nat :=
  let v :=
    if '0' ≤ c ∧ c ≤ '9' then c.toNat - '0'.toNat
    else if 'A' ≤ c ∧ c ≤ 'F' then c.toNat - 'A'.toNat + 10
    else if 'a' ≤ c ∧ c ≤ 'f' then c.toNat - 'a'.toNat + 10
    else base
  if v < base then some v else none

/-- Digits, the most significant first, after the value read so far. -/
def digitsValue (base : Nat) (acc : Nat) : List Char → Option Nat
  | [] => some acc
  | c :: cs =>
    match digitValue base c with
    | none => none
    | some v => digitsValue base (acc * base + v) cs

/-- A number: decimal, or hexadecimal after `0x` (R99). -/
def numberOf : List Char → Option Nat
  | [] => none
  | '0' :: 'x' :: c :: cs => digitsValue 16 0 (c :: cs)
  | c :: cs => digitsValue 10 0 (c :: cs)

/-- Blanks taken off both ends. -/
def trimBlanks (l : List Char) : List Char :=
  ((l.dropWhile (· = ' ')).reverse.dropWhile (· = ' ')).reverse

/-- A line up to its comment, which `;` starts. -/
def withoutComment (l : List Char) : List Char := trimBlanks (l.takeWhile (· ≠ ';'))

/-- The operands after the mnemonic, separated by commas; none if one of them is no number. -/
def operandsOf (l : List Char) : Option (List Nat) :=
  match trimBlanks l with
  | [] => some []
  | cs => (cs.splitOn ',').mapM fun o => numberOf (trimBlanks o)

/-- A one-bit operand. -/
def bitOperand (n : Nat) (mk : Bool → Instr) : Option AsmLine :=
  if n < 2 then some (.command (mk (decide (n = 1)))) else none

/-- An eight-bit operand. -/
def byteOperand (n : Nat) (mk : BitVec 8 → Instr) : Option AsmLine :=
  if n < 256 then some (.command (mk (BitVec.ofNat 8 n))) else none

/-- A line from its mnemonic and its operands, in the order of R92. -/
def lineOf (m : List Char) (ops : List Nat) : Option AsmLine :=
  match ops with
  | [] =>
    if m = "RESET".toList then some (.command .reset)
    else if m = "GETFRAME".toList then some (.command .getframe)
    else if m = "ACC_REVBITS".toList then some (.command .accRevbits)
    else if m = "ACC_REVNIB".toList then some (.command .accRevnib)
    else if m = "ACKALL".toList then some .ackall
    else if m = "TAKE".toList then some .take
    else none
  | [n] =>
    if m = "FEED".toList then if n < 2 ^ 32 then some (.command (.feed (BitVec.ofNat 32 n))) else none
    else if m = "READOUT".toList then bitOperand n .readout
    else if m = "ACK".toList then byteOperand n .ack
    else if m = "READREG".toList then byteOperand n .readreg
    else if m = "LUT".toList then byteOperand n .lut
    else if m = "ACC_PUSH".toList then bitOperand n .accPush
    else if m = "ACC_PUSHM".toList then bitOperand n .accPushm
    else if m = "ACC_ALIGN".toList then byteOperand n .accAlign
    else none
  | [id, txw, rclr] =>
    if m = "SEED".toList ∧ id < 2 ^ 16 ∧ txw < 2 ∧ rclr < 2 then
      some (.command (.seed (BitVec.ofNat 16 id) (decide (txw = 1)) (decide (rclr = 1))))
    else none
  | _ => none

/-- The command of a text line (R99). -/
def parseLine (l : List Char) : Option AsmLine :=
  let cs := withoutComment l
  match operandsOf (cs.dropWhile (· ≠ ' ')) with
  | none => none
  | some ops => lineOf (cs.takeWhile (· ≠ ' ')) ops

/-- The word of a text line (R99). -/
def assemble (l : List Char) : Option CommandWord :=
  (parseLine l).map fun a => encode a.expand

end Sys2Proof.Machine
end

