-- ==== Sys2Proof/Machine/Conversions.lean ====
section
/-! DEFINITION. The consumer side of 45_calibration.md R268: the physical values of the raw fields as exact rationals. They are
not hardware (R4): no command reads them, and the rounding and formatting of the report layer are out of scope. -/

namespace Sys2Proof.Machine

/-- The channels of a probe (R183). -/
inductive Channel where
  | a
  | b
  | c
  deriving DecidableEq, Repr

/-- PR_TRAW in °C. -/
def probeCelsius (traw : BitVec 11) : Rat := ((traw.toNat : Rat) - 1000) / 10

/-- °C to °F. -/
def fahrenheit (c : Rat) : Rat := c * 9 / 5 + 32

/-- PR_CHCODE: 3 is A, 2 is B, 0 is C; the code 1 is never written (R38). -/
def probeChannel (code : BitVec 2) : Option Channel :=
  match code.toNat with
  | 3 => some .a
  | 2 => some .b
  | 0 => some .c
  | _ => none

/-- ST_WRAW in m/s. -/
def windMetresPerSecond (wraw : BitVec 8) : Rat :=
  if wraw = 0 then 0 else (wraw.toNat : Rat) * 23 / 100 + 28 / 100

/-- ST_WRAW in km/h. -/
def windKilometresPerHour (wraw : BitVec 8) : Rat := windMetresPerSecond wraw * 36 / 10

/-- ST_DIR in degrees, by DIRTAB (R220). -/
def windDegrees (dir : BitVec 4) : Rat := ((dirTab.getD dir.toNat 0 : Nat) : Rat) / 10

/-- ST_RAIN, 1/100 per count; the unit is not stated. -/
def rainfall (rain : BitVec 14) : Rat := (rain.toNat : Rat) / 100

/-- ST_TRAW in °C. -/
def stationCelsius (traw : BitVec 11) : Rat := ((traw.toNat : Rat) - 400) / 10

/-- ST_HUM in per cent. -/
def humidityPercent (hum : BitVec 7) : Rat := hum.toNat

/-- ST_BATT: 1 is battery ok. -/
def stationBatteryOk (batt : Bool) : Bool := batt

/-- KH, the meter constant. -/
def meterConstant (p : Params) : Rat := (p.khNum : Rat) / p.khDen

/-- PM_PINT as power, 3 600 000 / PM_PINT × KH; none while no interval was extracted (PM_PINT = 0, R242;
assumption 12). -/
def power (p : Params) (pint : BitVec 14) : Option Rat :=
  if pint = 0 then none else some (3600000 / (pint.toNat : Rat) * meterConstant p)

/-- PM_TCAL in °C. -/
def powerCelsius (tcal : BitVec 8) : Int := tcal.toInt

/-- PM_ENERGY as energy, 4/1000 × PM_ENERGY × KH. -/
def energy (p : Params) (count : BitVec 14) : Rat := 4 / 1000 * (count.toNat : Rat) * meterConstant p

end Sys2Proof.Machine
end

