-- ==== Sys2Proof/Machine/System.lean ====
section
/-! DEFINITION. Several instances (60_exceptions.md R293): each has its own state; a host reaches one of them at a
time (assumption 8). -/

namespace Sys2Proof.Machine

/-- A system: its instances, named by their place in the list. -/
abbrev System := List State

/-- The host issues a command word to the instance `k`. -/
def issueTo (k : Nat) (w : CommandWord) (sys : System) : System := sys.modify k (issue w)

/-- The instance `k` takes one step. -/
def stepInstance (k : Nat) (sys : System) : Host.Outcome System Fault Refusal :=
  match sys[k]? with
  | none => .next sys
  | some s =>
    match step s with
    | .next t => .next (sys.set k t)
    | .fault r => .fault r
    | .refused r => .refused r

end Sys2Proof.Machine
end

