-- ==== Sys2Proof/Safety.lean ====
section
/-! DEFINITION. What claims are stated in: runs of commands, the invariants of the state (R27, R28, R37 to R45), the bits the
BitAccumulator holds (R142), the canonical pulse sequences (R177, R207, R245), and the host's obligations (R311, R318). -/

namespace Sys2Proof.Machine

/-! ## Runs -/

/-- The state after one command; a stop leaves the state as it was (no command stops). -/
def after (i : Instr) (s : State) : State :=
  match exec i s with
  | .next t => t
  | .fault _ => s
  | .refused _ => s

/-- The state after a stream of commands, in the order the host issues them (R80). -/
def afterAll (is : List Instr) (s : State) : State := is.foldl (fun t i => after i t) s

/-- One FEED per pulse, in arrival order (R310). -/
def feedAll (ds : List Duration) (s : State) : State := afterAll (ds.map Instr.feed) s

/-! ## Invariants -/

/-- The BitAccumulator: BUF has CAP bytes; POS <= CAP (R26); POS = CAP implies NBITS = 0 (R27); TOTAL = 8*POS + NBITS (R28);
the unfilled low bits of a partial byte are 0 (R142). -/
structure AccInv (s : State) : Prop where
  bufLen    : Memory.wf s.params.cap s.acc.buf = true
  posLe     : s.acc.pos ≤ s.params.cap
  fullNbits : s.acc.pos = s.params.cap → s.acc.nbits = 0
  totalEq   : s.acc.total.toNat = 8 * s.acc.pos.toNat + s.acc.nbits.toNat
  unfilled  : s.acc.nbits ≠ 0 → ∀ k, k < 8 - s.acc.nbits.toNat →
    (Memory.read s.acc.buf s.acc.pos.toNat).getLsbD k = false

/-- What PROTO fixes: the reserved DIRTY bits are 0 (R37); the registers of another protocol keep their POR value (R36, R38
to R42); the channel code 1 is never written (R38). -/
structure ProtoInv (s : State) : Prop where
  dirtyReserved : s.dirty &&& ~~~(dirtyFields s.params.proto) = 0
  txidZero      : s.params.proto ≠ .power → s.txid = 0
  rainZero      : s.params.proto ≠ .station → s.rainBase = 0 ∧ s.rainValid = false
  hiclassNone   : s.params.proto ≠ .probe → s.dec.hiclass = .none
  probeZero     : s.params.proto ≠ .probe → s.probe = (State.powerOn s.params).probe
  stationZero   : s.params.proto ≠ .station → s.station = (State.powerOn s.params).station
  powerZero     : s.params.proto ≠ .power → s.power = (State.powerOn s.params).power
  chcodeDefined : s.probe.chcode ≠ 1

/-- The frame latch: FV is 0 while a frame is built and 1 in Complete (R31), FLEN <= CAP, and the counters that `reset()`
clears are clear in Idle and, PCOUNT apart, in Preamble (R125, R140). -/
structure FrameInv (s : State) : Prop where
  preambleFv    : s.dec.dstate = .preamble → s.fv = false
  framingFv     : s.dec.dstate = .framing → s.fv = false
  completeFv    : s.dec.dstate = .complete → s.fv = true
  flenLe        : s.flen ≤ s.params.cap
  idleClear     : s.dec.dstate = .idle → s.dec.pcount = 0 ∧ s.dec.phase = 0 ∧ s.dec.hiclass = .none
  preambleClear : s.dec.dstate = .preamble → s.dec.phase = 0 ∧ s.dec.hiclass = .none

/-- The invariant of the state. -/
structure StateInv (s : State) : Prop where
  acc   : AccInv s
  proto : ProtoInv s
  frame : FrameInv s

/-- The counters under the reference values of R5: PROBE counts at most 7 sync pulses (R173) and its PHASE lies in 1..111
while it frames, odd exactly while a high phase is latched (R174); POWER's PHASE is at most 63 while it frames (R234). -/
structure PhaseInv (s : State) : Prop where
  probePreamble : s.params.proto = .probe → s.dec.dstate = .preamble → s.dec.pcount ≤ 7
  probeFraming  : s.params.proto = .probe → s.dec.dstate = .framing → 1 ≤ s.dec.phase ∧ s.dec.phase ≤ 111
  probeLatch    : s.params.proto = .probe → s.dec.dstate = .framing →
    (s.dec.phase.toNat % 2 = 1 ↔ s.dec.hiclass ≠ .none)
  powerFraming  : s.params.proto = .power → s.dec.dstate = .framing → s.dec.phase ≤ 63

/-- The frame length in bytes of each protocol (R32). -/
def frameBytes : Proto → BitVec 8
  | .probe => 7
  | .station => 8
  | .power => 4

/-- What holds while the host keeps ACC_* commands clear of frames (R311), under the reference values of R5: in Preamble no bit
is held; in Framing the bits held are those the counted phases carry (R174, R204, R234); a frame that can be retrieved has the
length of its protocol (R32). -/
structure QuietInv (s : State) : Prop where
  preambleEmpty : s.dec.dstate = .preamble → s.acc.total = 0
  probeBits     : s.params.proto = .probe → s.dec.dstate = .framing → s.acc.total.toNat = s.dec.phase.toNat / 2
  stationBits   : s.params.proto = .station → s.dec.dstate = .framing →
    s.acc.total.toNat = (s.dec.phase.toNat + 1) / 2 ∧ s.acc.total < s.params.stBits
  powerBits     : s.params.proto = .power → s.dec.dstate = .framing → s.acc.total.toNat = s.dec.phase.toNat / 2
  frameLength   : s.fv = true → s.flen = frameBytes s.params.proto

/-! ## The bits held (R142) -/

/-- Bit `7 - (j mod 8)` of byte `j div 8`: the j-th bit of a byte sequence read MSB-first. -/
def Memory.bit (m : Memory) (j : Nat) : Bool := (Memory.read m (j / 8)).getLsbD (7 - j % 8)

/-- The first `n` bits of a byte sequence read MSB-first. -/
def Memory.bits (m : Memory) (n : Nat) : List Bool := (List.range n).map (Memory.bit m)

/-- s_0 .. s_{N-1}: the TOTAL bits held, in push order (R142, R151). -/
def heldBits (s : State) : List Bool := Memory.bits s.acc.buf s.acc.total.toNat

/-! ## The canonical pulse sequences -/

/-- The bits of frame bytes in the order they travel: bit 0 of each byte first (R177). -/
def airBits (f : List Byte) : List Bool := f.flatMap fun b => (List.range 8).map fun i => b.getLsbD i

/-- R177: 600 µs eight times, then (400, 200) for a 1 and (200, 400) for a 0. -/
def probeSequence (f : List Byte) : List Duration :=
  List.replicate 8 600 ++ (airBits f).flatMap fun b => if b then [400, 200] else [200, 400]

/-- Two lists of pulses taken in turn, the first list first; what is left of one when the other ends follows as it is. -/
def alternate : List Duration → List Duration → List Duration
  | [], lows => lows
  | highs, [] => highs
  | h :: highs, l :: lows => h :: l :: alternate highs lows

/-- R207, R205: 650 µs `n` times, then a high phase of 450 for a 1 and 250 for a 0, each but the last followed by its low
phase, of any duration. -/
def stationSequence (n : Nat) (lows : List Duration) (f : List Byte) : List Duration :=
  List.replicate n 650 ++ alternate ((airBits f).map fun b => if b then 450 else 250) lows

/-- R245: 500 µs `n` times, the delimiter 1500, then for each bit its high phase, of any duration, and a low phase of 500 for
a 1 and 1000 for a 0. -/
def powerSequence (n : Nat) (highs : List Duration) (f : List Byte) : List Duration :=
  List.replicate n 500 ++ 1500 :: alternate highs ((airBits f).map fun b => if b then 500 else 1000)

/-! ## Obligations of the host -/

/-- R311: a host that wants the decoders' rules to hold issues ACC_* only while DSTATE = Idle and FV = 0. -/
def accQuiet (i : Instr) (s : State) : Bool :=
  match i with
  | .accPush _ | .accPushm _ | .accRevbits | .accRevnib | .accAlign _ => decide (s.dec.dstate = .idle) && !s.fv
  | .feed _ | .reset | .getframe | .readout _ | .ack _ | .seed _ _ _ | .readreg _ | .lut _ => true

/-- R318: the edges of a stream are no closer together than T_FEED; a faster host is outside the model. -/
def paced (p : Params) (ds : List Duration) : Bool := ds.all fun d => decide (p.tFeed ≤ d.toNat)

/-- A safe step: it answers a next state. -/
def Safe (s : State) : Prop := ∃ t, step s = .next t

end Sys2Proof.Machine
end

