-- ==== Sys2Proof/Certificates/Slice0/Obligations.lean ====
section
/-! DEFINITION. The statements for the provers, made from the numbered rules of spec/. -/

open Sys2Proof Sys2Proof.Machine

/-! ## Encoding -/

namespace Sys2Proof.Spec

/-- The opcode map of R92 with the reserved operand bits that R91 gives the form of each command: (OPC, reserved bits of OPD). -/
def forms : List (BitVec 8 × BitVec 32) :=
  [(0x01, 0x00000000), (0x02, 0xFFFFFFFF), (0x03, 0xFFFFFFFF), (0x04, 0xFFFFFFFE), (0x05, 0xFFFFFF00), (0x06, 0xFFFC0000)] ++
  [(0x07, 0xFFFFFF00), (0x08, 0xFFFFFF00), (0x10, 0xFFFFFFFE), (0x11, 0xFFFFFFFE), (0x12, 0xFFFFFFFF), (0x13, 0xFFFFFFFF)] ++
  [(0x14, 0xFFFFFF00)]

/-- A word is legal: it decodes to some command. -/
def Legal (w : CommandWord) : Prop := ∃ i, decode w = .ok i

/-- What R98 makes of a state when an illegal word is taken from the stream: ILL and the response, nothing else. -/
def illegalEffect (s : State) (rest : List CommandWord) : State :=
  { s with commands := rest, stickyIll := true, response := some .illegal }

/-- The five ACC_* commands. -/
def IsAcc (i : Instr) : Prop :=
  (∃ b, i = .accPush b) ∨ (∃ b, i = .accPushm b) ∨ i = .accRevbits ∨ i = .accRevnib ∨ ∃ k, i = .accAlign k

/-- FEED. -/
def IsFeed (i : Instr) : Prop := ∃ d, i = .feed d

/-- The state `reset()` leaves (R140), written out. -/
def cleared (s : State) : State :=
  { s with
    dec := ⟨.idle, 0, 0, .none⟩
    acc := { s.acc with pos := 0, nbits := 0, total := 0, toggle := false } }

/-- The state a FEED leaves when its protocol step left `t` and answered `(ready, evt)` (R110). -/
def fedState (t : State) (ready : Bool) (evt : Event) : State :=
  { t with lastEvt := evt, response := some (.feed ready evt) }

/-- The state after BeginFrame() (R125), written out. -/
def begun (s : State) : State :=
  { cleared s with dec := ⟨.preamble, 0, 0, .none⟩, fv := false }

/-- Byte `k` of the frame in BUF. -/
def byte (s : State) (k : Nat) : Byte := Memory.read s.acc.buf k

/-- The state `t` that the FEED which completes a frame with the bits `l` leaves (R124, R142, R146): Complete, the frame
latched, and bit `j` of `l` in byte `j / 8`, MSB-first, but that REV_<PROTO> = 1 (`rev`) reverses each completed byte. -/
def Completed (rev : Bool) (l : List Bool) (t : State) : Prop :=
  t.dec.dstate = .complete ∧ t.fv = true ∧ t.flen = t.acc.pos ∧ t.acc.pos.toNat = l.length / 8 ∧
  ∀ j, j < l.length →
    l[j]? = some ((byte t (j / 8)).getLsbD (if rev = true ∧ j / 8 < t.acc.pos.toNat then j % 8 else 7 - j % 8))

end Sys2Proof.Spec

open Sys2Proof.Spec

/-- R91 to R93: decoding the word of a command gives the command back, with every operand at every value. -/
def Obligations.DecodeOfEncode : Prop :=
  ∀ i : Instr, i.wf = true → decode (encode i) = .ok i

/-- R93: a word stands for at most one command, and that command's word is the word itself, reserved bits included. -/
def Obligations.EncodeOfDecode : Prop :=
  ∀ (w : CommandWord) (i : Instr), decode w = .ok i → encode i = w

/-- R93: legal iff OPC is in the map and the form's reserved bits are 0; legal iff exactly one row of the table matches; no
two rows overlap; and the row that matches is the decoded command's own. -/
def Obligations.LegalIffOneTableRow : Prop :=
  (∀ w, Legal w ↔ ∃ f ∈ forms, opcOf w = f.1 ∧ opdOf w &&& f.2 = 0) ∧
  (∀ w, Legal w ↔ (opcodeTable.filter fun r => r.matchesWord w).length = 1) ∧
  opcodeTable.Pairwise (fun r q => ∀ w, ¬(r.matchesWord w = true ∧ q.matchesWord w = true)) ∧
  (∀ w i, decode w = .ok i → ∃ r ∈ opcodeTable, r.mnemonic = i.mnemonic ∧ r.matchesWord w = true)

/-- R94 with R98: the reserved opcodes and the reserved operand bits are refused by name, and the step that takes such a word
has the effect of an illegal word and no other. -/
def Obligations.ReservedEncodingsAreIllegal : Prop :=
  (∀ w, (opcOf w = 0x00 ∨ (0x09 ≤ opcOf w ∧ opcOf w ≤ 0x0F) ∨ 0x15 ≤ opcOf w) →
    decode w = .error (.unknownOpcode (opcOf w))) ∧
  (∀ w, ∀ f ∈ forms, opcOf w = f.1 → opdOf w &&& f.2 ≠ 0 → decode w = .error (.reservedBits (opcOf w))) ∧
  (∀ (s : State) (w : CommandWord) (rest : List CommandWord) (e : Reject),
    s.commands = w :: rest → decode w = .error e → step s = .next (illegalEffect s rest))

/-- 95_test_vectors.md 2.1: words of the spec decode to the commands they stand for. -/
def Obligations.SpecWordsDecode : Prop :=
  decode 0x0100000258 = .ok (.feed 600) ∧ decode 0x0200000000 = .ok .reset ∧ decode 0x0300000000 = .ok .getframe ∧
  decode 0x0400000001 = .ok (.readout true) ∧ decode 0x0500000003 = .ok (.ack 3) ∧
  decode 0x0600011234 = .ok (.seed 0x1234 true false) ∧ decode 0x0600020000 = .ok (.seed 0 false true) ∧
  decode 0x0700000020 = .ok (.readreg 0x20) ∧ decode 0x080000000F = .ok (.lut 15) ∧
  decode 0x1000000001 = .ok (.accPush true) ∧ decode 0x1100000001 = .ok (.accPushm true) ∧
  decode 0x1200000000 = .ok .accRevbits ∧ decode 0x1300000000 = .ok .accRevnib ∧ decode 0x1400000002 = .ok (.accAlign 2)

/-! ## The step -/

/-- R76, R80, R90: a step whose next word decodes to `i` is exec of `i` on the state without that word (the stream of words is
the model's: assumption 3). -/
def Obligations.StepRunsDecodedCommand : Prop :=
  ∀ (s : State) (w : CommandWord) (rest : List CommandWord) (i : Instr),
    s.commands = w :: rest → decode w = .ok i → step s = exec i { s with commands := rest }

/-- The word of any command, issued next, is run by the very next step (the model's stream: assumption 3). -/
def Obligations.FetchedWordIsRun : Prop :=
  ∀ (s : State) (i : Instr), step (s.withFetchWord 40 (encode i).toNat) = exec i s

/-- R98: an illegal word sets STICKY.ILL and returns `ill = 1`; it changes no other state. The word itself leaves the stream. -/
def Obligations.IllegalWordOnlySetsIll : Prop :=
  ∀ (s : State) (w : CommandWord) (rest : List CommandWord), s.commands = w :: rest → ¬ Legal w →
    step s = .next { s with commands := rest, stickyIll := true, response := some .illegal }

/-- R284, R314: no word can fault, hang or leave the block stuck; every step answers a next state. The second clause is the
model's choice (assumption 3): with no command issued the block waits, its state retained (R291, R295). -/
def Obligations.StepNeverStops : Prop :=
  (∀ s : State, ∃ t, step s = .next t) ∧ (∀ s : State, s.commands = [] → step s = .next s)

/-- R22, R23, R43: no step changes PROTO, CAP, CAL_TABLE or any other parameter. -/
def Obligations.ParametersAreHardwired : Prop :=
  ∀ s t : State, step s = .next t → t.params = s.params

/-- R34: ILL is set by any illegal word, no step clears it, POR clears it, `reset()` leaves it, no legal word sets it, and
register 0x09 reads it in bit 0 with the other bits 0. -/
def Obligations.StickyIllRule : Prop :=
  (∀ s t : State, step s = .next t → s.stickyIll = true → t.stickyIll = true) ∧
  (∀ (s t : State) (w : CommandWord) (rest : List CommandWord), s.commands = w :: rest → step s = .next t →
    (t.stickyIll = true ↔ s.stickyIll = true ∨ ¬ Legal w)) ∧
  (∀ p, (State.powerOn p).stickyIll = false) ∧
  (∀ s, (softReset s).stickyIll = s.stickyIll) ∧
  (∀ s, readReg s 0x09 = if s.stickyIll then 0x01 else 0x00)

/-! ## Reset -/

/-- R300: the value of every state element after power-on reset. -/
def Obligations.PowerOnValues : Prop :=
  ∀ p : Params, let s := State.powerOn p
    s.params = p ∧ s.dec.dstate = .idle ∧ s.acc.buf.length = p.cap.toNat ∧ (∀ i, Memory.read s.acc.buf i = 0) ∧
    s.acc.pos = 0 ∧ s.acc.nbits = 0 ∧ s.acc.total = 0 ∧ s.acc.toggle = false ∧ s.dec.pcount = 0 ∧ s.dec.phase = 0 ∧
    s.dec.hiclass = .none ∧ s.fv = false ∧ s.flen = 0 ∧ s.lastEvt = .none ∧ sticky s = 0 ∧ s.dirty = 0 ∧
    s.probe = ⟨0, 0⟩ ∧ s.station = ⟨0, 0, 0, 0, 0, 0, false⟩ ∧ s.power = ⟨0, 0, 0, false, 0⟩ ∧
    readTxid s = (if p.proto = .power then p.txidSeed else 0) ∧ s.rainBase = 0 ∧ s.rainValid = false

/-- The reset instance is POR of parameters that meet R5 and R260 and have every reference value of R5; that its PROTO is
PROBE is the model's choice (assumption 1). -/
def Obligations.ResetInstanceIsWellFormed : Prop :=
  State.reset = State.powerOn Params.unknown ∧ Params.unknown.wf = true ∧ Params.unknown.isReference = true ∧
  Params.unknown.cap = 25 ∧ Params.unknown.proto = .probe

/-! ## Invariants -/

/-- The invariant holds after power-on reset, whatever the parameters, and so at reset. -/
def Obligations.InvariantAtPowerOn : Prop :=
  (∀ p, StateInv (State.powerOn p) ∧ PhaseInv (State.powerOn p) ∧ QuietInv (State.powerOn p)) ∧
  StateInv State.reset ∧ PhaseInv State.reset ∧ QuietInv State.reset

/-- R32, R143, R311, under the reference values of R5: while the host issues ACC_* only in Idle with FV = 0, no FEED overflows
and every frame that can be retrieved has 7, 8 or 4 bytes. -/
def Obligations.QuietHostNeverOverflows : Prop :=
  ∀ (s t : State) (i : Instr), s.params.isReference = true → s.params.capOk = true → StateInv s → PhaseInv s → QuietInv s →
    accQuiet i s = true → exec i s = .next t → QuietInv t ∧ t.response ≠ some (.feed false .overflow)

/-- R25 to R28, R31, R36 to R42, R45: every step keeps the invariant. -/
def Obligations.StepKeepsInvariant : Prop :=
  ∀ s t : State, StateInv s → step s = .next t → StateInv t

/-- R173, R174, R234 under the reference values of R5: every step keeps the bounds of the two counters. -/
def Obligations.StepKeepsCounterBounds : Prop :=
  ∀ s t : State, s.params.isReference = true → StateInv s → PhaseInv s → step s = .next t → PhaseInv t

/-! ## Interface commands -/

/-- R112, R140, R141: RESET clears DSTATE, POS, NBITS, TOTAL, TOGGLE, PCOUNT, PHASE and HICLASS and changes nothing else; the
frame GETFRAME returns is the same; a second one changes nothing, and in Idle with zero counters the first one does not. -/
def Obligations.ResetCommandResult : Prop :=
  (∀ s : State, exec .reset s = .next { cleared s with response := some .done } ∧ frameRecord (cleared s) = frameRecord s) ∧
  (∀ s, softReset (softReset s) = softReset s) ∧
  (∀ s : State, s.dec = ⟨.idle, 0, 0, .none⟩ → s.acc.pos = 0 → s.acc.nbits = 0 → s.acc.total = 0 → s.acc.toggle = false →
    softReset s = s)

/-- R114: GETFRAME returns FLEN bytes of BUF while FV = 1 and `len` = 0 otherwise; no state is written. -/
def Obligations.GetframeResult : Prop :=
  ∀ s : State, StateInv s → ∃ bytes : List Byte,
    exec .getframe s = .next { s with response := some (.frame (if s.fv then s.flen else 0) bytes) } ∧
    bytes.length = (if s.fv then s.flen else 0).toNat ∧ ∀ i, (h : i < bytes.length) → bytes[i] = Memory.read s.acc.buf i

/-- R115 for a frame that can be retrieved (FV = 1; assumption 14): neither a FEED that begins no new frame, nor RESET, GETFRAME, READOUT,
ACK, SEED, READREG or LUT changes the record GETFRAME returns. -/
def Obligations.GetframeIsIdempotent : Prop :=
  ∀ (s t : State) (i : Instr), StateInv s → s.fv = true → ¬ IsAcc i → exec i s = .next t →
    (IsFeed i → t.dec.dstate ≠ .preamble) → t.fv = true ∧ frameRecord t = frameRecord s

/-- R116, R117: READOUT returns PROTO, DIRTY and the output registers of PROTO; RC = 1 clears DIRTY; nothing else changes. -/
def Obligations.ReadoutResult : Prop :=
  ∀ (s : State) (rc : Bool), ∃ fields : OutFields,
    exec (.readout rc) s = .next { s with
      dirty := if rc then 0 else s.dirty
      response := some (.reading s.params.proto s.dirty fields) } ∧
    (s.params.proto = .probe → fields = .probe s.probe) ∧
    (s.params.proto = .station → fields = .station s.station) ∧
    (s.params.proto = .power → fields = .power s.txid s.power)

/-- R118: ACK clears the DIRTY bits of its mask, sets none, and changes nothing else. -/
def Obligations.AckResult : Prop :=
  ∀ (s : State) (k : BitVec 8), ∃ m : BitVec 8,
    exec (.ack k) s = .next { s with dirty := m, response := some .done } ∧
    ∀ i, i < 8 → m.getLsbD i = (s.dirty.getLsbD i && !k.getLsbD i)

/-- R120: SEED writes TXID in a POWER instance with TXW = 1, clears the rain baseline in a STATION instance with RCLR = 1,
and ignores a flag of another protocol; nothing else changes. -/
def Obligations.SeedResult : Prop :=
  ∀ (s : State) (id : BitVec 16) (txw rclr : Bool),
    exec (.seed id txw rclr) s = .next { s with
      txid := if s.params.proto = .power ∧ txw = true then id else s.txid
      rainBase := if s.params.proto = .station ∧ rclr = true then 0 else s.rainBase
      rainValid := if s.params.proto = .station ∧ rclr = true then false else s.rainValid
      response := some .done }

/-- R44, R72, R126: READREG returns what the register map gives for its address, 0 where the map reserves a bit or an
address, and writes no state. -/
def Obligations.ReadregReturnsTheMap : Prop :=
  ∀ (s : State) (k : BitVec 8), StateInv s → ∃ v : BitVec 8,
    exec (.readreg k) s = .next { s with response := some (.reg v) } ∧
    (k = 0x00 → v.extractLsb' 0 2 = s.dec.dstate.code ∧ v.extractLsb' 2 2 = s.params.proto.code ∧ v.getLsbD 4 = s.fv ∧
      v.getLsbD 5 = s.acc.toggle ∧ v.extractLsb' 6 2 = s.dec.hiclass.code) ∧
    (k = 0x01 → v = s.acc.pos) ∧ (k = 0x02 → v.toNat = s.acc.nbits.toNat) ∧
    (k = 0x03 → v.toNat = s.acc.total.toNat % 256) ∧ (k = 0x04 → v.toNat = s.acc.total.toNat / 256) ∧
    (k = 0x05 → v = s.dec.pcount) ∧ (k = 0x06 → v = s.dec.phase) ∧ (k = 0x07 → v = s.flen) ∧
    (k = 0x08 → v.toNat = s.lastEvt.code.toNat) ∧ (k = 0x09 → v.toNat = s.stickyIll.toNat) ∧ (k = 0x0A → v = s.dirty) ∧
    (k = 0x0B → v.toNat = s.txid.toNat % 256) ∧ (k = 0x0C → v.toNat = s.txid.toNat / 256) ∧
    (k = 0x0D → v.toNat = s.rainBase.toNat % 256) ∧
    (k = 0x0E → v.toNat = s.rainBase.toNat / 256 + 128 * s.rainValid.toNat) ∧ (k = 0x0F → v = s.params.cap) ∧
    (0x10 ≤ k.toNat → k.toNat ≤ 0x1F → v = 0) ∧
    (0x20 ≤ k.toNat → k.toNat < 0x20 + s.params.cap.toNat → v = Memory.read s.acc.buf (k.toNat - 0x20)) ∧
    (0x20 + s.params.cap.toNat ≤ k.toNat → v = 0)

/-- R77: READREG, GETFRAME, LUT and READOUT with RC = 0 write nothing but the response; READOUT with RC = 1 clears the DIRTY
bits it returned; and each of them, issued again, gives the same response and record. -/
def Obligations.ReadsHaveNoSideEffect : Prop :=
  (∀ (s : State) (i : Instr), i = .getframe ∨ i = .readout false ∨ (∃ k, i = .readreg k) ∨ (∃ k, i = .lut k) →
    ∃ r : Response, exec i s = .next { s with response := some r } ∧
      exec i { s with response := some r } = .next { s with response := some r }) ∧
  (∀ s : State, ∃ f : OutFields,
    exec (.readout true) s = .next { s with dirty := 0, response := some (.reading s.params.proto s.dirty f) } ∧
    exec (.readout false) s = .next { s with response := some (.reading s.params.proto s.dirty f) })

/-! ## The CAL LUT -/

/-- R122: LUT returns Interp(K) as 8-bit two's complement, exactly, in every instance, and writes no state; `LUT 15` is -32. -/
def Obligations.LutResult : Prop :=
  ∀ (s : State) (k : BitVec 8), s.params.calTable.wf = true → ∃ v : BitVec 8,
    exec (.lut k) s = .next { s with response := some (.lut v) } ∧ v.toInt = interp s.params.calTable k ∧
    (k = 15 → v = 0xE0)

/-- R262: above the last anchor, at or below the first one, and between two neighbours, for every table meeting R260. That the
quotient is truncated toward zero is the spec's own general knowledge (G5; assumption 13). -/
def Obligations.InterpByBracket : Prop :=
  ∀ t : CalTable, t.wf = true →
    (∀ raw, t.last.code < raw → interp t raw = t.last.value.toInt) ∧
    (∀ raw, raw ≤ t.first.code → interp t raw = t.first.value.toInt) ∧
    (∀ (pre post : List Anchor) (lo hi : Anchor) (raw : BitVec 8), t.anchors = pre ++ lo :: hi :: post →
      lo.code < raw → raw ≤ hi.code →
      interp t raw = lo.value.toInt + Int.tdiv ((hi.value.toInt - lo.value.toInt) * (raw.toNat - lo.code.toNat))
        (hi.code.toNat - lo.code.toNat))

/-- R263: exact at an anchor; between the neighbours' values; monotone where they are; constant past the last anchor. -/
def Obligations.InterpProperties : Prop :=
  ∀ t : CalTable, t.wf = true →
    (∀ a ∈ t.anchors, interp t a.code = a.value.toInt) ∧
    (∀ raw, -128 ≤ interp t raw ∧ interp t raw ≤ 127) ∧
    (∀ (pre post : List Anchor) (lo hi : Anchor) (raw raw' : BitVec 8), t.anchors = pre ++ lo :: hi :: post →
      lo.code ≤ raw → raw ≤ raw' → raw' ≤ hi.code →
      min lo.value.toInt hi.value.toInt ≤ interp t raw ∧ interp t raw ≤ max lo.value.toInt hi.value.toInt ∧
      (lo.value.toInt ≤ hi.value.toInt → interp t raw ≤ interp t raw') ∧
      (hi.value.toInt ≤ lo.value.toInt → interp t raw' ≤ interp t raw)) ∧
    (∀ raw, t.last.code < raw → interp t raw = t.last.value.toInt)

/-- R264: the four examples hold under any table meeting R260. -/
def Obligations.InterpExamplesOfAnyTable : Prop :=
  ∀ t : CalTable, t.wf = true → interp t 0 = -49 ∧ interp t 10 = -42 ∧ interp t 15 = -32 ∧ interp t 200 = 127

/-! ## The BitAccumulator -/

/-- R142, R143, R152: ACC_PUSH stores its bit left-aligned in BUF[POS] and counts it; with POS = CAP it resets, drops the bit
and answers `ovf` = 1. -/
def Obligations.AccPushResult : Prop :=
  ∀ (s : State) (b : Bool),
    (s.acc.pos = s.params.cap →
      exec (.accPush b) s = .next { cleared s with response := some (.push true) }) ∧
    (s.acc.pos ≠ s.params.cap →
      exec (.accPush b) s = .next { s with
        acc := { s.acc with
          buf := s.acc.buf.set s.acc.pos.toNat
            ((if s.acc.nbits = 0 then 0 else byte s s.acc.pos.toNat) |||
              (BitVec.ofNat 8 (b.toNat <<< (7 - s.acc.nbits.toNat))))
          total := s.acc.total + 1
          nbits := if s.acc.nbits = 7 then 0 else s.acc.nbits + 1
          pos := if s.acc.nbits = 7 then s.acc.pos + 1 else s.acc.pos }
        response := some (.push false) })

/-- R144, R154: ACC_PUSHM flips TOGGLE by its flag and pushes the new TOGGLE; an overflow clears TOGGLE. -/
def Obligations.AccPushmResult : Prop :=
  ∀ (s : State) (v : Bool),
    exec (.accPushm v) s =
      exec (.accPush (xor s.acc.toggle v)) { s with acc := { s.acc with toggle := xor s.acc.toggle v } } ∧
    ∃ t, exec (.accPushm v) s = .next t ∧
      t.acc.toggle = (if s.acc.pos = s.params.cap then false else xor s.acc.toggle v) ∧
      t.response = some (.push (decide (s.acc.pos = s.params.cap)))

/-- R142 (Representation): the j-th bit held is bit `7 - (j mod 8)` of `BUF[j div 8]`, and a push that does not overflow
appends one bit to the bits held. -/
def Obligations.PushAppendsOneBit : Prop :=
  ∀ (s t : State) (b : Bool), AccInv s → s.acc.pos ≠ s.params.cap → exec (.accPush b) s = .next t →
    heldBits t = heldBits s ++ [b]

/-- R146, R156: ACC_REVBITS reverses the bits of every completed byte; a partial byte, the counters and everything else are
unchanged. -/
def Obligations.RevbitsResult : Prop :=
  ∀ s : State, ∃ m : List Byte,
    exec .accRevbits s = .next { s with acc := { s.acc with buf := m }, response := some .done } ∧ m.length = s.acc.buf.length ∧
    (∀ i j, i < s.acc.pos.toNat → j < 8 → (Memory.read m i).getLsbD j = (byte s i).getLsbD (7 - j)) ∧
    (∀ i, s.acc.pos.toNat ≤ i → Memory.read m i = byte s i)

/-- R148, R158: ACC_REVNIB swaps the nibbles of every completed byte; everything else is unchanged. -/
def Obligations.RevnibResult : Prop :=
  ∀ s : State, ∃ m : List Byte,
    exec .accRevnib s = .next { s with acc := { s.acc with buf := m }, response := some .done } ∧ m.length = s.acc.buf.length ∧
    (∀ i, i < s.acc.pos.toNat → (Memory.read m i).toNat = (byte s i).toNat % 16 * 16 + (byte s i).toNat / 16) ∧
    (∀ i, s.acc.pos.toNat ≤ i → Memory.read m i = byte s i)

/-- R146, R148: each of the two transforms, applied twice, is the identity. -/
def Obligations.TransformsAreInvolutions : Prop :=
  ∀ (i : Instr) (s : State), i = .accRevbits ∨ i = .accRevnib →
    exec i (after i s) = .next { s with response := some .done }

/-- R151: after ACC_ALIGN the held bits are aligned to their tail: `8P - N` zero bits, then the bits held before; with
0 < m < P only the last m bytes remain, at the front. -/
def Obligations.AlignTailIsTheBitStream : Prop :=
  ∀ (s t : State) (m : BitVec 8), AccInv s → exec (.accAlign m) s = .next t →
    let n := s.acc.total.toNat
    let p := (n + 7) / 8
    let keep := if 0 < m.toNat ∧ m.toNat < p then m.toNat else p
    t.acc.nbits = 0 ∧ t.acc.pos.toNat = keep ∧ t.acc.total.toNat = 8 * keep ∧
    heldBits t = (List.replicate (8 * p - n) false ++ heldBits s).drop (8 * (p - keep))

/-- R150: ACC_ALIGN completes; it writes BUF[0..POS], POS, NBITS and TOTAL and nothing else, and the bytes that truncation
leaves behind keep their values. -/
def Obligations.AlignFrame : Prop :=
  ∀ (s : State) (m : BitVec 8), AccInv s → ∃ t0 t : State,
    exec (.accAlign 0) s = .next t0 ∧ exec (.accAlign m) s = .next t ∧
    t = { s with acc := { t.acc with toggle := s.acc.toggle }, response := some .done } ∧
    (∀ i, (s.acc.total.toNat + 7) / 8 ≤ i → byte t i = byte s i) ∧
    (∀ i, 0 < m.toNat → m.toNat ≤ i → byte t i = byte t0 i)

/-- 41_accumulator.md section 2: every ACC_* command leaves DSTATE, PCOUNT, PHASE, HICLASS unchanged unless it overflows, and
FV, FLEN, LAST_EVT and every register outside the BitAccumulator always. -/
def Obligations.AccCommandsFrame : Prop :=
  ∀ (s t : State) (i : Instr), IsAcc i → exec i s = .next t →
    t = { s with dec := t.dec, acc := t.acc, response := t.response } ∧
    (t.response ≠ some (.push true) → t.dec = s.dec) ∧
    (t.response = some (.push true) → t.dec = ⟨.idle, 0, 0, .none⟩ ∧ t.acc.buf = s.acc.buf) ∧
    ((∃ b, i = .accPush b ∨ i = .accPushm b) → ∀ a, a ≠ s.acc.pos.toNat → byte t a = byte s a)

/-! ## FEED, whatever the protocol -/

/-- R110, R280: every FEED completes and answers one event code, which LAST_EVT takes; `ready` is 1 exactly with the codes 5 to
8, exactly when the frame reached Complete; a code 1 to 4 means the accumulator was reset to Idle; ID_CAPTURED is POWER's. -/
def Obligations.FeedAnswersOneEvent : Prop :=
  ∀ (s : State) (d : Duration), ∃ (t : State) (ready : Bool) (evt : Event),
    exec (.feed d) s = .next t ∧ t.response = some (.feed ready evt) ∧ t.lastEvt = evt ∧
    (ready = true ↔ evt ∈ [Event.frameOk, .checkFail, .framePartial, .idCaptured]) ∧
    (ready = true ↔ t.dec.dstate = .complete) ∧
    (evt ∈ [Event.outOfWindow, .preambleMismatch, .bitMismatch, .overflow] →
      t.dec = ⟨.idle, 0, 0, .none⟩ ∧ t.acc.pos = 0 ∧ t.acc.nbits = 0 ∧ t.acc.total = 0 ∧ t.acc.toggle = false) ∧
    (evt = .idCaptured → s.params.proto = .power) ∧ (evt = .bitMismatch → s.params.proto = .probe)

/-- What FEED leaves unchanged: the parameters, STICKY, the stream, the registers of another protocol, every byte of BUF but the
one it pushes into and, when it completes a frame, those it reverses, and PCOUNT where it enters Framing, frames or completes. -/
def Obligations.FeedFrame : Prop :=
  ∀ (s t : State) (d : Duration) (ready : Bool) (evt : Event), exec (.feed d) s = .next t →
    t.response = some (.feed ready evt) →
    t.params = s.params ∧ t.stickyIll = s.stickyIll ∧ t.commands = s.commands ∧
    (s.params.proto ≠ .probe → t.probe = s.probe) ∧ (s.params.proto ≠ .station → t.station = s.station) ∧
    (s.params.proto ≠ .power → t.power = s.power ∧ t.txid = s.txid) ∧
    (s.params.proto ≠ .station → t.rainBase = s.rainBase ∧ t.rainValid = s.rainValid) ∧
    t.acc.buf.length = s.acc.buf.length ∧
    (∀ a, a ≠ s.acc.pos.toNat → (ready = true → t.acc.pos.toNat ≤ a) → byte t a = byte s a) ∧
    (ready = false → t.flen = s.flen) ∧ (t.acc.toggle = s.acc.toggle ∨ t.acc.toggle = false) ∧
    (t.dec.dstate = .framing ∨ t.dec.dstate = .complete → t.dec.pcount = s.dec.pcount)

/-- R124: no event but FRAME_OK, FRAME_PARTIAL and ID_CAPTURED changes an output register, a DIRTY bit, TXID or the rain
baseline. -/
def Obligations.OnlyValidFramesChangeReadings : Prop :=
  ∀ (s t : State) (d : Duration), exec (.feed d) s = .next t →
    t.lastEvt ≠ .frameOk → t.lastEvt ≠ .framePartial → t.lastEvt ≠ .idCaptured →
    t.probe = s.probe ∧ t.station = s.station ∧ t.power = s.power ∧ t.dirty = s.dirty ∧ t.txid = s.txid ∧
    t.rainBase = s.rainBase ∧ t.rainValid = s.rainValid

/-- R31, R33, R37: over all commands. FV goes to 1 only in the FEED that reaches Complete and to 0 only in the FEED that
begins a frame; only FEED writes LAST_EVT and FLEN and only FEED sets a DIRTY bit; only FEED and the ACC_* commands write BUF. -/
def Obligations.WhoWritesTheStatus : Prop :=
  ∀ (s t : State) (i : Instr), exec i s = .next t →
    (s.fv = false → t.fv = true → IsFeed i ∧ t.dec.dstate = .complete) ∧
    (s.fv = true → t.fv = false → IsFeed i ∧ t.dec.dstate = .preamble) ∧
    (¬ IsFeed i → t.fv = s.fv ∧ t.flen = s.flen ∧ t.lastEvt = s.lastEvt ∧ t.dirty &&& ~~~s.dirty = 0) ∧
    (¬ IsFeed i → ¬ IsAcc i → t.acc.buf = s.acc.buf) ∧
    (¬ IsFeed i → t.probe = s.probe ∧ t.station = s.station ∧ t.power = s.power)

/-! ## The protocol steps -/

namespace Sys2Proof.Spec

/-- The pulse starts a preamble (R172, R202, R232). -/
def Starts (p : Params) (d : Duration) : Prop :=
  match p.proto with
  | .probe => p.prSync.lo ≤ d ∧ d < p.prSync.hi
  | .station => p.stSync.lo ≤ d ∧ d < p.stSync.hi
  | .power => d < p.pmShort

end Sys2Proof.Spec

/-- R111, R172, R202, R232: in Idle and in Complete, a pulse that starts a preamble begins a frame (FV is cleared, PCOUNT is 0),
and any other is rejected with OUT_OF_WINDOW, FV kept. -/
def Obligations.FeedFromIdleOrComplete : Prop :=
  ∀ (s : State) (d : Duration), s.dec.dstate = .idle ∨ s.dec.dstate = .complete →
    (Starts s.params d → exec (.feed d) s = .next (fedState (begun s) false .none)) ∧
    (¬ Starts s.params d → exec (.feed d) s = .next (fedState (cleared s) false .outOfWindow))

/-- R173: a PROBE instance in Preamble. -/
def Obligations.ProbePreambleStep : Prop :=
  ∀ (s : State) (d : Duration), s.params.proto = .probe → s.dec.dstate = .preamble →
    (s.dec.pcount < s.params.prPreN → prSync s.params d = true →
      exec (.feed d) s = .next (fedState { s with dec := { s.dec with pcount := s.dec.pcount + 1 } } false .none)) ∧
    (s.dec.pcount < s.params.prPreN → prSync s.params d = false →
      exec (.feed d) s = .next (fedState (cleared s) false .preambleMismatch)) ∧
    (s.params.prPreN ≤ s.dec.pcount → prClass s.params d = .none →
      exec (.feed d) s = .next (fedState (cleared s) false .preambleMismatch)) ∧
    (s.params.prPreN ≤ s.dec.pcount → prClass s.params d ≠ .none →
      exec (.feed d) s = .next
        (fedState { s with dec := ⟨.framing, s.dec.pcount, 1, prClass s.params d⟩ } false .none))

/-- R174 but for the push: a PROBE instance in Framing takes a high phase, or rejects. -/
def Obligations.ProbeFramingStep : Prop :=
  ∀ (s : State) (d : Duration), s.params.proto = .probe → s.dec.dstate = .framing →
    (prClass s.params d = .none → exec (.feed d) s = .next (fedState (cleared s) false .outOfWindow)) ∧
    (prClass s.params d ≠ .none → s.dec.phase.toNat % 2 = 0 →
      exec (.feed d) s = .next
        (fedState { s with dec := ⟨.framing, s.dec.pcount, s.dec.phase + 1, prClass s.params d⟩ } false .none)) ∧
    (prClass s.params d ≠ .none → s.dec.phase.toNat % 2 = 1 →
      ¬ (s.dec.hiclass = .long ∧ prClass s.params d = .short) → ¬ (s.dec.hiclass = .short ∧ prClass s.params d = .long) →
      exec (.feed d) s = .next (fedState (cleared s) false .bitMismatch))

/-- R174, the push: a pair (LONG, SHORT) commits a 1 and a pair (SHORT, LONG) a 0; the frame completes with the phase edge
PR_PHASES, its bytes reversed as REV_PROBE says (R124, R146); PCOUNT is kept; with the buffer full the push overflows and the
instance is in Idle. -/
def Obligations.ProbeCommitsABit : Prop :=
  ∀ (s : State) (d : Duration) (b : Bool), s.params.proto = .probe → s.dec.dstate = .framing →
    s.dec.phase.toNat % 2 = 1 → s.dec.phase ≠ 255 → AccInv s →
    (b = true → s.dec.hiclass = .long ∧ prClass s.params d = .short) →
    (b = false → s.dec.hiclass = .short ∧ prClass s.params d = .long) →
    (s.acc.pos = s.params.cap → exec (.feed d) s = .next (fedState (cleared s) false .overflow)) ∧
    (s.acc.pos ≠ s.params.cap →
      ∃ t, exec (.feed d) s = .next t ∧ t.dec.phase = s.dec.phase + 1 ∧ t.dec.hiclass = .none ∧
        t.dec.pcount = s.dec.pcount ∧ t.acc.total = s.acc.total + 1 ∧
        (s.dec.phase + 1 ≠ s.params.prPhases →
          t.dec.dstate = .framing ∧ t.response = some (.feed false .none) ∧ heldBits t = heldBits s ++ [b]) ∧
        (s.dec.phase + 1 = s.params.prPhases → Completed s.params.rev (heldBits s ++ [b]) t))

/-- R203: a STATION instance in Preamble. With a full buffer, which only ACC_* commands can leave there, the push overflows
(R311; assumption 5). -/
def Obligations.StationPreambleStep : Prop :=
  ∀ (s : State) (d : Duration), s.params.proto = .station → s.dec.dstate = .preamble →
    (stSync s.params d = true →
      exec (.feed d) s = .next
        (fedState { s with dec := { s.dec with pcount := BitVec.ofNat 8 (min (s.dec.pcount.toNat + 1) 255) } } false .none)) ∧
    (stSync s.params d = false → s.params.stPreMin < s.dec.pcount → (stOne s.params d = true ∨ stZero s.params d = true) →
      s.acc.pos = s.params.cap → exec (.feed d) s = .next (fedState (cleared s) false .overflow)) ∧
    (stSync s.params d = false → s.params.stPreMin < s.dec.pcount → (stOne s.params d = true ∨ stZero s.params d = true) →
      AccInv s → s.acc.pos ≠ s.params.cap →
      ∃ t, exec (.feed d) s = .next (fedState t false .none) ∧ t.dec = ⟨.framing, s.dec.pcount, 1, s.dec.hiclass⟩ ∧
        heldBits t = heldBits s ++ [stOne s.params d]) ∧
    (stSync s.params d = false → ¬ (s.params.stPreMin < s.dec.pcount ∧ (stOne s.params d = true ∨ stZero s.params d = true)) →
      exec (.feed d) s = .next (fedState (cleared s) false .preambleMismatch))

/-- R204: a STATION instance in Framing takes any low phase, classifies a high phase, and completes at TOTAL = ST_BITS, its
bytes reversed as REV_STATION says (R124, R146); PCOUNT is kept. What PHASE holds after 255 + 1 is open, but for its parity
(assumption 4). -/
def Obligations.StationFramingStep : Prop :=
  ∀ (s : State) (d : Duration), s.params.proto = .station → s.dec.dstate = .framing → AccInv s →
    (s.dec.phase.toNat % 2 = 1 → s.dec.phase ≠ 255 →
      exec (.feed d) s = .next (fedState { s with dec := { s.dec with phase := s.dec.phase + 1 } } false .none)) ∧
    (s.dec.phase = 255 → ∃ v : BitVec 8, v.toNat % 2 = 0 ∧
      exec (.feed d) s =
        .next (fedState { s with dec := { s.dec with phase := v }, freeCtr := s.freeCtr + 1 } false .none)) ∧
    (s.dec.phase.toNat % 2 = 0 → stOne s.params d = false → stZero s.params d = false →
      exec (.feed d) s = .next (fedState (cleared s) false .outOfWindow)) ∧
    (s.dec.phase.toNat % 2 = 0 → (stOne s.params d = true ∨ stZero s.params d = true) → s.acc.pos = s.params.cap →
      exec (.feed d) s = .next (fedState (cleared s) false .overflow)) ∧
    (s.dec.phase.toNat % 2 = 0 → (stOne s.params d = true ∨ stZero s.params d = true) → s.acc.pos ≠ s.params.cap →
      ∃ t, exec (.feed d) s = .next t ∧ t.dec.phase = s.dec.phase + 1 ∧ t.dec.pcount = s.dec.pcount ∧
        t.acc.total = s.acc.total + 1 ∧
        (s.acc.total + 1 ≠ s.params.stBits →
          t.dec.dstate = .framing ∧ t.response = some (.feed false .none) ∧
          heldBits t = heldBits s ++ [stOne s.params d]) ∧
        (s.acc.total + 1 = s.params.stBits → Completed s.params.rev (heldBits s ++ [stOne s.params d]) t))

/-- R233: a POWER instance in Preamble. -/
def Obligations.PowerPreambleStep : Prop :=
  ∀ (s : State) (d : Duration), s.params.proto = .power → s.dec.dstate = .preamble →
    (d < s.params.pmShort →
      exec (.feed d) s = .next
        (fedState { s with dec := { s.dec with pcount := BitVec.ofNat 8 (min (s.dec.pcount.toNat + 1) 255) } } false .none)) ∧
    (¬ d < s.params.pmShort → s.params.pmDelim < d → s.params.pmPreMin ≤ s.dec.pcount →
      exec (.feed d) s = .next
        (fedState { s with dec := ⟨.framing, s.dec.pcount, 0, s.dec.hiclass⟩ } false .none)) ∧
    (¬ d < s.params.pmShort → ¬ (s.params.pmDelim < d ∧ s.params.pmPreMin ≤ s.dec.pcount) →
      exec (.feed d) s = .next (fedState (cleared s) false .preambleMismatch))

/-- R234: a POWER instance in Framing takes any high phase, pushes a bit at each low phase, and completes at PM_PULSES, its
bytes reversed as REV_POWER says (R124, R146); PCOUNT is kept. -/
def Obligations.PowerFramingStep : Prop :=
  ∀ (s : State) (d : Duration), s.params.proto = .power → s.dec.dstate = .framing → s.dec.phase ≠ 255 → AccInv s →
    (s.dec.phase.toNat % 2 = 0 →
      exec (.feed d) s = .next (fedState { s with dec := { s.dec with phase := s.dec.phase + 1 } } false .none)) ∧
    (s.dec.phase.toNat % 2 = 1 → s.acc.pos = s.params.cap →
      exec (.feed d) s = .next (fedState (cleared s) false .overflow)) ∧
    (s.dec.phase.toNat % 2 = 1 → s.acc.pos ≠ s.params.cap →
      ∃ t, exec (.feed d) s = .next t ∧ t.dec.phase = s.dec.phase + 1 ∧ t.dec.pcount = s.dec.pcount ∧
        t.acc.total = s.acc.total + 1 ∧
        (s.dec.phase + 1 ≠ s.params.pmPulses →
          t.dec.dstate = .framing ∧ t.response = some (.feed false .none) ∧
          heldBits t = heldBits s ++ [decide (d < s.params.pmShort)]) ∧
        (s.dec.phase + 1 = s.params.pmPulses →
          Completed s.params.rev (heldBits s ++ [decide (d < s.params.pmShort)]) t))

/-! ## The parsers -/

/-- R180 to R184: what the FEED that completes a PROBE frame makes of the frame's bytes. -/
def Obligations.ProbeFrameParse : Prop :=
  ∀ (s t : State) (d : Duration) (evt : Event), s.params.proto = .probe → exec (.feed d) s = .next t →
    t.response = some (.feed true evt) →
    let b := fun k => (byte t k).toNat
    let valid := (b 0 + b 1 + b 2 + b 3 + b 4 + b 5) % 256 = b 6
    (¬ valid → evt = .checkFail ∧ t.probe = s.probe ∧ t.dirty = s.dirty) ∧
    (valid → t.probe.traw.toNat = b 4 % 16 * 128 + b 5 % 128) ∧
    (valid → b 0 / 64 = 1 → evt = .framePartial ∧ t.probe.chcode = s.probe.chcode ∧ t.dirty = s.dirty ||| 0x01) ∧
    (valid → b 0 / 64 ≠ 1 → evt = .frameOk ∧ t.probe.chcode.toNat = b 0 / 64 ∧ t.dirty = s.dirty ||| 0x03)

/-- R212 to R218: what the FEED that completes a STATION frame makes of the frame's bytes. The type codes and the place of the
wind bits are the spec's own general knowledge (G3, G4; assumption 13). -/
def Obligations.StationFrameParse : Prop :=
  ∀ (s t : State) (d : Duration) (evt : Event), s.params.proto = .station → s.params.isReference = true →
    exec (.feed d) s = .next t → t.response = some (.feed true evt) →
    let b := fun k => (byte t k).toNat
    let sum := (b 0 + b 1 + b 2 + b 3 + b 4 + b 5 + b 6) % 256
    let count := b 5 % 128 * 128 + b 6 % 128
    let valid := sum = b 7 ∧ sum ≠ 0
    (¬ valid → evt = .checkFail ∧ t.station = s.station ∧ t.dirty = s.dirty ∧ t.rainBase = s.rainBase ∧
      t.rainValid = s.rainValid) ∧
    (valid → t.station.wraw.toNat = b 3 % 32 * 8 + b 4 / 16 % 8 ∧ t.station.type.toNat = b 2 % 64) ∧
    (valid → b 2 % 64 = 0x31 → evt = .frameOk ∧ t.station.dir.toNat = b 4 % 16 ∧ t.rainBase.toNat = count ∧
      t.rainValid = true ∧ t.station.traw = s.station.traw ∧ t.station.hum = s.station.hum ∧ t.station.batt = s.station.batt ∧
      (s.rainValid = true → t.station.rain.toNat = (count + 16384 - s.rainBase.toNat) % 16384 ∧ t.dirty = s.dirty ||| 0x07) ∧
      (s.rainValid = false → t.station.rain = s.station.rain ∧ t.dirty = s.dirty ||| 0x03)) ∧
    (valid → b 2 % 64 = 0x38 → evt = .frameOk ∧ t.station.traw.toNat = b 4 % 16 * 128 + b 5 % 128 ∧
      t.station.hum.toNat = b 6 % 128 ∧ t.station.batt = decide (b 2 / 64 % 2 = 1) ∧ t.station.dir = s.station.dir ∧
      t.station.rain = s.station.rain ∧ t.rainBase = s.rainBase ∧ t.rainValid = s.rainValid ∧ t.dirty = s.dirty ||| 0x39) ∧
    (valid → b 2 % 64 ≠ 0x31 → b 2 % 64 ≠ 0x38 → evt = .framePartial ∧ t.dirty = s.dirty ||| 0x01 ∧
      t.station = { s.station with wraw := t.station.wraw, type := t.station.type } ∧ t.rainBase = s.rainBase ∧
      t.rainValid = s.rainValid)

/-- R236 to R242: what the FEED that completes a POWER frame makes of the frame's bytes: the ID path, the corrected path, and
the field that the low two bits of the corrected low byte select. The CRC is the spec's own general knowledge (G1; assumption
13). -/
def Obligations.PowerFrameParse : Prop :=
  ∀ (s t : State) (d : Duration) (evt : Event), s.params.proto = .power → exec (.feed d) s = .next t →
    t.response = some (.feed true evt) →
    let raw := (byte t 2).toNat * 256 + (byte t 1).toNat
    let direct := crc8 [byte t 1, byte t 2, byte t 3] = 0
    let corr := (raw + 65536 - s.txid.toNat) % 65536
    let corrected := crc8 [BitVec.ofNat 8 corr, BitVec.ofNat 8 (corr / 256), byte t 3] = 0
    (direct → evt = .idCaptured ∧ t.txid.toNat = raw ∧ t.dirty = s.dirty ||| 0x10 ∧ t.power = s.power) ∧
    (¬ direct → t.txid = s.txid) ∧
    (¬ direct → ¬ corrected → evt = .checkFail ∧ t.power = s.power ∧ t.dirty = s.dirty) ∧
    (¬ direct → corrected → corr % 4 = 1 → corr / 4 ≠ 0 → evt = .frameOk ∧ t.dirty = s.dirty ||| 0x01 ∧
      t.power = { s.power with pint := BitVec.ofNat 14 (corr / 4) }) ∧
    (¬ direct → corrected → corr % 4 = 2 → evt = .frameOk ∧ t.dirty = s.dirty ||| 0x06 ∧
      t.power = { s.power with
        tcode := BitVec.ofNat 8 (corr / 256)
        tcal := BitVec.ofInt 8 (interp s.params.calTable (BitVec.ofNat 8 (corr / 256)))
        batt := decide (BitVec.ofNat 8 corr &&& s.params.pmBattMask ≠ 0) }) ∧
    (¬ direct → corrected → corr % 4 = 3 → evt = .frameOk ∧ t.dirty = s.dirty ||| 0x08 ∧
      t.power = { s.power with energy := BitVec.ofNat 14 (corr / 4) }) ∧
    (¬ direct → corrected → corr % 4 = 0 ∨ (corr % 4 = 1 ∧ corr / 4 = 0) → evt = .framePartial ∧ t.power = s.power ∧
      t.dirty = s.dirty)

/-- R239: a zero residue over three bytes means that the third is the CRC of the first two, and the check values. The algorithm
is the spec's own general knowledge (G1; assumption 13). -/
def Obligations.CrcResidueIsTheCheck : Prop :=
  (∀ a b c : Byte, crcOk a b c = true ↔ crc8 [a, b] = c) ∧
  crc8 [0x31, 0x32, 0x33, 0x34, 0x35, 0x36, 0x37, 0x38, 0x39] = 0xF4 ∧
  crc8 [0x01] = 0x07 ∧ crc8 [0x80] = 0x89 ∧ crc8 [0xFF] = 0xF3 ∧ crc8 [0x12, 0x34] = 0xF1 ∧ crc8 [0x34, 0x12] = 0xD3 ∧
  crc8 [0xAB, 0xCD] = 0xE2 ∧ crc8 [0x00, 0x00] = 0x00

/-! ## Whole frames and resync -/

/-- R177, R180: from Idle or Complete, the canonical sequence of a 7-byte frame F completes it: BUF holds F, FLEN is 7, and F
is accepted iff its sum checks. -/
def Obligations.ProbeSequenceCompletesItsFrame : Prop :=
  ∀ (s : State) (f : List Byte), StateInv s → s.params.proto = .probe → s.params.isReference = true → s.params.capOk = true →
    s.dec.dstate = .idle ∨ s.dec.dstate = .complete → f.length = 7 →
    let t := feedAll (probeSequence f) s
    (probeSequence f).length = 120 ∧ t.dec.dstate = .complete ∧ t.fv = true ∧ t.flen = 7 ∧ t.acc.buf.take 7 = f ∧
    (t.lastEvt = .checkFail ↔ sumBytes (f.getD · 0) 6 ≠ f.getD 6 0) ∧
    ∀ n, n < 120 → (feedAll ((probeSequence f).take n) s).dec.dstate = .complete → n = 0

/-- R205, R207: from Idle or Complete, the canonical sequence of an 8-byte frame F completes it, whatever the 63 low phases and
the number n >= 5 of sync pulses, and not before its last pulse. -/
def Obligations.StationSequenceCompletesItsFrame : Prop :=
  ∀ (s : State) (f : List Byte) (n : Nat) (lows : List Duration), StateInv s → s.params.proto = .station →
    s.params.isReference = true → s.params.capOk = true → s.dec.dstate = .idle ∨ s.dec.dstate = .complete → f.length = 8 →
    5 ≤ n → lows.length = 63 →
    let t := feedAll (stationSequence n lows f) s
    (stationSequence n lows f).length = n + 127 ∧ t.dec.dstate = .complete ∧ t.fv = true ∧ t.flen = 8 ∧
    t.acc.buf.take 8 = f ∧
    ∀ m, m < n + 127 → (feedAll ((stationSequence n lows f).take m) s).dec.dstate = .complete → m = 0

/-- R235, R245: from Idle or Complete, the canonical sequence of a 4-byte frame F completes it, whatever the 32 high phases and
the number n >= 9 of short pulses, and not before its last pulse. -/
def Obligations.PowerSequenceCompletesItsFrame : Prop :=
  ∀ (s : State) (f : List Byte) (n : Nat) (highs : List Duration), StateInv s → s.params.proto = .power →
    s.params.isReference = true → s.params.capOk = true → s.dec.dstate = .idle ∨ s.dec.dstate = .complete → f.length = 4 →
    9 ≤ n → highs.length = 32 →
    let t := feedAll (powerSequence n highs f) s
    (powerSequence n highs f).length = n + 65 ∧ t.dec.dstate = .complete ∧ t.fv = true ∧ t.flen = 4 ∧
    t.acc.buf.take 4 = f ∧
    ∀ m, m < n + 65 → (feedAll ((powerSequence n highs f).take m) s).dec.dstate = .complete → m = 0

/-- R314: the resync pulses bring any instance to Idle: one pulse of 50 µs for PROBE, at most two for STATION, at most 65
pulses of 1000 µs for POWER. For STATION with PHASE = 255 this rests on the parity of assumption 4. -/
def Obligations.ResyncPulsesReachIdle : Prop :=
  (∀ s : State, s.params.proto = .probe → s.params.isReference = true → (feedAll [50] s).dec.dstate = .idle) ∧
  (∀ s : State, s.params.proto = .station → s.params.isReference = true → (feedAll [50, 50] s).dec.dstate = .idle) ∧
  (∀ s : State, s.params.proto = .power → s.params.isReference = true → StateInv s → PhaseInv s →
    (feedAll (List.replicate 65 1000) s).dec.dstate = .idle)

/-! ## Several instances, and the consumer's conversions -/

/-- R293: a step of one instance leaves every other instance as it was, and is the step of that instance alone. -/
def Obligations.InstancesAreIndependent : Prop :=
  ∀ (sys sys' : System) (k j : Nat), stepInstance k sys = .next sys' →
    sys'.length = sys.length ∧ (j ≠ k → sys'[j]? = sys[j]?) ∧
    ∀ s, sys[k]? = some s → ∃ t, step s = .next t ∧ sys'[k]? = some t

/-- R220: every entry of DIRTAB is a multiple of 22.5 degrees below 360, and each multiple appears exactly once. Thirteen of the
entries are the spec's own general knowledge (G2; assumption 13). -/
def Obligations.DirtabIsACompass : Prop :=
  dirTab.length = 16 ∧ (∀ e ∈ dirTab, ∃ n, n < 16 ∧ e = 225 * n) ∧ (∀ n, n < 16 → dirTab.count (225 * n) = 1) ∧
  windDegrees 6 = 0 ∧ windDegrees 0 = 315 ∧ windDegrees 15 = 180
end

