-- ==== Sys2Proof/Laws/State.lean ====
section
/-! SUPPORT. One lemma per field per update of the state: what each shared operation leaves in each field. -/

namespace Sys2Proof.Machine

/-! ## reset() (R140) -/

@[simp] theorem softReset_params (s : State) : (softReset s).params = s.params := rfl
@[simp] theorem softReset_dec (s : State) : (softReset s).dec = ⟨.idle, 0, 0, .none⟩ := rfl
@[simp] theorem softReset_fv (s : State) : (softReset s).fv = s.fv := rfl
@[simp] theorem softReset_flen (s : State) : (softReset s).flen = s.flen := rfl
@[simp] theorem softReset_lastEvt (s : State) : (softReset s).lastEvt = s.lastEvt := rfl
@[simp] theorem softReset_stickyIll (s : State) : (softReset s).stickyIll = s.stickyIll := rfl
@[simp] theorem softReset_dirty (s : State) : (softReset s).dirty = s.dirty := rfl
@[simp] theorem softReset_probe (s : State) : (softReset s).probe = s.probe := rfl
@[simp] theorem softReset_station (s : State) : (softReset s).station = s.station := rfl
@[simp] theorem softReset_power (s : State) : (softReset s).power = s.power := rfl
@[simp] theorem softReset_txid (s : State) : (softReset s).txid = s.txid := rfl
@[simp] theorem softReset_rainBase (s : State) : (softReset s).rainBase = s.rainBase := rfl
@[simp] theorem softReset_rainValid (s : State) : (softReset s).rainValid = s.rainValid := rfl
@[simp] theorem softReset_commands (s : State) : (softReset s).commands = s.commands := rfl
@[simp] theorem softReset_response (s : State) : (softReset s).response = s.response := rfl
@[simp] theorem softReset_freeCtr (s : State) : (softReset s).freeCtr = s.freeCtr := rfl
@[simp] theorem softReset_acc_buf (s : State) : (softReset s).acc.buf = s.acc.buf := rfl
@[simp] theorem softReset_acc_pos (s : State) : (softReset s).acc.pos = 0 := rfl
@[simp] theorem softReset_acc_nbits (s : State) : (softReset s).acc.nbits = 0 := rfl
@[simp] theorem softReset_acc_total (s : State) : (softReset s).acc.total = 0 := rfl
@[simp] theorem softReset_acc_toggle (s : State) : (softReset s).acc.toggle = false := rfl

/-! ## The response latch (R96) -/

@[simp] theorem respond_params (r : Response) (s : State) : (respond r s).params = s.params := rfl
@[simp] theorem respond_dec (r : Response) (s : State) : (respond r s).dec = s.dec := rfl
@[simp] theorem respond_acc (r : Response) (s : State) : (respond r s).acc = s.acc := rfl
@[simp] theorem respond_fv (r : Response) (s : State) : (respond r s).fv = s.fv := rfl
@[simp] theorem respond_flen (r : Response) (s : State) : (respond r s).flen = s.flen := rfl
@[simp] theorem respond_lastEvt (r : Response) (s : State) : (respond r s).lastEvt = s.lastEvt := rfl
@[simp] theorem respond_stickyIll (r : Response) (s : State) : (respond r s).stickyIll = s.stickyIll := rfl
@[simp] theorem respond_dirty (r : Response) (s : State) : (respond r s).dirty = s.dirty := rfl
@[simp] theorem respond_probe (r : Response) (s : State) : (respond r s).probe = s.probe := rfl
@[simp] theorem respond_station (r : Response) (s : State) : (respond r s).station = s.station := rfl
@[simp] theorem respond_power (r : Response) (s : State) : (respond r s).power = s.power := rfl
@[simp] theorem respond_txid (r : Response) (s : State) : (respond r s).txid = s.txid := rfl
@[simp] theorem respond_rainBase (r : Response) (s : State) : (respond r s).rainBase = s.rainBase := rfl
@[simp] theorem respond_rainValid (r : Response) (s : State) : (respond r s).rainValid = s.rainValid := rfl
@[simp] theorem respond_commands (r : Response) (s : State) : (respond r s).commands = s.commands := rfl
@[simp] theorem respond_response (r : Response) (s : State) : (respond r s).response = some r := rfl
@[simp] theorem respond_freeCtr (r : Response) (s : State) : (respond r s).freeCtr = s.freeCtr := rfl

/-! ## The illegal command (R98) -/

@[simp] theorem illegalCommand_params (s : State) : (illegalCommand s).params = s.params := rfl
@[simp] theorem illegalCommand_dec (s : State) : (illegalCommand s).dec = s.dec := rfl
@[simp] theorem illegalCommand_acc (s : State) : (illegalCommand s).acc = s.acc := rfl
@[simp] theorem illegalCommand_fv (s : State) : (illegalCommand s).fv = s.fv := rfl
@[simp] theorem illegalCommand_flen (s : State) : (illegalCommand s).flen = s.flen := rfl
@[simp] theorem illegalCommand_lastEvt (s : State) : (illegalCommand s).lastEvt = s.lastEvt := rfl
@[simp] theorem illegalCommand_stickyIll (s : State) : (illegalCommand s).stickyIll = true := rfl
@[simp] theorem illegalCommand_dirty (s : State) : (illegalCommand s).dirty = s.dirty := rfl
@[simp] theorem illegalCommand_probe (s : State) : (illegalCommand s).probe = s.probe := rfl
@[simp] theorem illegalCommand_station (s : State) : (illegalCommand s).station = s.station := rfl
@[simp] theorem illegalCommand_power (s : State) : (illegalCommand s).power = s.power := rfl
@[simp] theorem illegalCommand_txid (s : State) : (illegalCommand s).txid = s.txid := rfl
@[simp] theorem illegalCommand_rainBase (s : State) : (illegalCommand s).rainBase = s.rainBase := rfl
@[simp] theorem illegalCommand_rainValid (s : State) : (illegalCommand s).rainValid = s.rainValid := rfl
@[simp] theorem illegalCommand_commands (s : State) : (illegalCommand s).commands = s.commands := rfl
@[simp] theorem illegalCommand_response (s : State) : (illegalCommand s).response = some .illegal := rfl
@[simp] theorem illegalCommand_freeCtr (s : State) : (illegalCommand s).freeCtr = s.freeCtr := rfl

/-! ## A DIRTY bit set (R37) -/

@[simp] theorem setDirty_params (i : Nat) (s : State) : (setDirty i s).params = s.params := rfl
@[simp] theorem setDirty_dec (i : Nat) (s : State) : (setDirty i s).dec = s.dec := rfl
@[simp] theorem setDirty_acc (i : Nat) (s : State) : (setDirty i s).acc = s.acc := rfl
@[simp] theorem setDirty_fv (i : Nat) (s : State) : (setDirty i s).fv = s.fv := rfl
@[simp] theorem setDirty_flen (i : Nat) (s : State) : (setDirty i s).flen = s.flen := rfl
@[simp] theorem setDirty_lastEvt (i : Nat) (s : State) : (setDirty i s).lastEvt = s.lastEvt := rfl
@[simp] theorem setDirty_stickyIll (i : Nat) (s : State) : (setDirty i s).stickyIll = s.stickyIll := rfl
@[simp] theorem setDirty_dirty (i : Nat) (s : State) : (setDirty i s).dirty = s.dirty ||| BitVec.twoPow 8 i := rfl
@[simp] theorem setDirty_probe (i : Nat) (s : State) : (setDirty i s).probe = s.probe := rfl
@[simp] theorem setDirty_station (i : Nat) (s : State) : (setDirty i s).station = s.station := rfl
@[simp] theorem setDirty_power (i : Nat) (s : State) : (setDirty i s).power = s.power := rfl
@[simp] theorem setDirty_txid (i : Nat) (s : State) : (setDirty i s).txid = s.txid := rfl
@[simp] theorem setDirty_rainBase (i : Nat) (s : State) : (setDirty i s).rainBase = s.rainBase := rfl
@[simp] theorem setDirty_rainValid (i : Nat) (s : State) : (setDirty i s).rainValid = s.rainValid := rfl
@[simp] theorem setDirty_commands (i : Nat) (s : State) : (setDirty i s).commands = s.commands := rfl
@[simp] theorem setDirty_response (i : Nat) (s : State) : (setDirty i s).response = s.response := rfl
@[simp] theorem setDirty_freeCtr (i : Nat) (s : State) : (setDirty i s).freeCtr = s.freeCtr := rfl

/-! ## DIRTY bits cleared (R118) -/

@[simp] theorem clearDirty_params (k : BitVec 8) (s : State) : (clearDirty k s).params = s.params := rfl
@[simp] theorem clearDirty_dec (k : BitVec 8) (s : State) : (clearDirty k s).dec = s.dec := rfl
@[simp] theorem clearDirty_acc (k : BitVec 8) (s : State) : (clearDirty k s).acc = s.acc := rfl
@[simp] theorem clearDirty_fv (k : BitVec 8) (s : State) : (clearDirty k s).fv = s.fv := rfl
@[simp] theorem clearDirty_flen (k : BitVec 8) (s : State) : (clearDirty k s).flen = s.flen := rfl
@[simp] theorem clearDirty_lastEvt (k : BitVec 8) (s : State) : (clearDirty k s).lastEvt = s.lastEvt := rfl
@[simp] theorem clearDirty_stickyIll (k : BitVec 8) (s : State) : (clearDirty k s).stickyIll = s.stickyIll := rfl
@[simp] theorem clearDirty_dirty (k : BitVec 8) (s : State) : (clearDirty k s).dirty = s.dirty &&& ~~~k := rfl
@[simp] theorem clearDirty_probe (k : BitVec 8) (s : State) : (clearDirty k s).probe = s.probe := rfl
@[simp] theorem clearDirty_station (k : BitVec 8) (s : State) : (clearDirty k s).station = s.station := rfl
@[simp] theorem clearDirty_power (k : BitVec 8) (s : State) : (clearDirty k s).power = s.power := rfl
@[simp] theorem clearDirty_txid (k : BitVec 8) (s : State) : (clearDirty k s).txid = s.txid := rfl
@[simp] theorem clearDirty_rainBase (k : BitVec 8) (s : State) : (clearDirty k s).rainBase = s.rainBase := rfl
@[simp] theorem clearDirty_rainValid (k : BitVec 8) (s : State) : (clearDirty k s).rainValid = s.rainValid := rfl
@[simp] theorem clearDirty_commands (k : BitVec 8) (s : State) : (clearDirty k s).commands = s.commands := rfl
@[simp] theorem clearDirty_response (k : BitVec 8) (s : State) : (clearDirty k s).response = s.response := rfl
@[simp] theorem clearDirty_freeCtr (k : BitVec 8) (s : State) : (clearDirty k s).freeCtr = s.freeCtr := rfl

/-! ## The frame latch (R124) -/

@[simp] theorem latchFrame_params (s : State) : (latchFrame s).params = s.params := rfl
@[simp] theorem latchFrame_acc (s : State) : (latchFrame s).acc = s.acc := rfl
@[simp] theorem latchFrame_fv (s : State) : (latchFrame s).fv = true := rfl
@[simp] theorem latchFrame_flen (s : State) : (latchFrame s).flen = s.acc.pos := rfl
@[simp] theorem latchFrame_lastEvt (s : State) : (latchFrame s).lastEvt = s.lastEvt := rfl
@[simp] theorem latchFrame_stickyIll (s : State) : (latchFrame s).stickyIll = s.stickyIll := rfl
@[simp] theorem latchFrame_dirty (s : State) : (latchFrame s).dirty = s.dirty := rfl
@[simp] theorem latchFrame_probe (s : State) : (latchFrame s).probe = s.probe := rfl
@[simp] theorem latchFrame_station (s : State) : (latchFrame s).station = s.station := rfl
@[simp] theorem latchFrame_power (s : State) : (latchFrame s).power = s.power := rfl
@[simp] theorem latchFrame_txid (s : State) : (latchFrame s).txid = s.txid := rfl
@[simp] theorem latchFrame_rainBase (s : State) : (latchFrame s).rainBase = s.rainBase := rfl
@[simp] theorem latchFrame_rainValid (s : State) : (latchFrame s).rainValid = s.rainValid := rfl
@[simp] theorem latchFrame_commands (s : State) : (latchFrame s).commands = s.commands := rfl
@[simp] theorem latchFrame_response (s : State) : (latchFrame s).response = s.response := rfl
@[simp] theorem latchFrame_freeCtr (s : State) : (latchFrame s).freeCtr = s.freeCtr := rfl
@[simp] theorem latchFrame_dec_dstate (s : State) : (latchFrame s).dec.dstate = .complete := rfl
@[simp] theorem latchFrame_dec_pcount (s : State) : (latchFrame s).dec.pcount = s.dec.pcount := rfl
@[simp] theorem latchFrame_dec_phase (s : State) : (latchFrame s).dec.phase = s.dec.phase := rfl
@[simp] theorem latchFrame_dec_hiclass (s : State) : (latchFrame s).dec.hiclass = s.dec.hiclass := rfl

/-! ## PCOUNT counted up (R30) -/

@[simp] theorem countPreamble_params (s : State) : (countPreamble s).params = s.params := rfl
@[simp] theorem countPreamble_acc (s : State) : (countPreamble s).acc = s.acc := rfl
@[simp] theorem countPreamble_fv (s : State) : (countPreamble s).fv = s.fv := rfl
@[simp] theorem countPreamble_flen (s : State) : (countPreamble s).flen = s.flen := rfl
@[simp] theorem countPreamble_lastEvt (s : State) : (countPreamble s).lastEvt = s.lastEvt := rfl
@[simp] theorem countPreamble_stickyIll (s : State) : (countPreamble s).stickyIll = s.stickyIll := rfl
@[simp] theorem countPreamble_dirty (s : State) : (countPreamble s).dirty = s.dirty := rfl
@[simp] theorem countPreamble_probe (s : State) : (countPreamble s).probe = s.probe := rfl
@[simp] theorem countPreamble_station (s : State) : (countPreamble s).station = s.station := rfl
@[simp] theorem countPreamble_power (s : State) : (countPreamble s).power = s.power := rfl
@[simp] theorem countPreamble_txid (s : State) : (countPreamble s).txid = s.txid := rfl
@[simp] theorem countPreamble_rainBase (s : State) : (countPreamble s).rainBase = s.rainBase := rfl
@[simp] theorem countPreamble_rainValid (s : State) : (countPreamble s).rainValid = s.rainValid := rfl
@[simp] theorem countPreamble_commands (s : State) : (countPreamble s).commands = s.commands := rfl
@[simp] theorem countPreamble_response (s : State) : (countPreamble s).response = s.response := rfl
@[simp] theorem countPreamble_freeCtr (s : State) : (countPreamble s).freeCtr = s.freeCtr := rfl
@[simp] theorem countPreamble_dec_dstate (s : State) : (countPreamble s).dec.dstate = s.dec.dstate := rfl
@[simp] theorem countPreamble_dec_pcount (s : State) : (countPreamble s).dec.pcount = if s.dec.pcount = 255 then 255 else s.dec.pcount + 1 := rfl
@[simp] theorem countPreamble_dec_phase (s : State) : (countPreamble s).dec.phase = s.dec.phase := rfl
@[simp] theorem countPreamble_dec_hiclass (s : State) : (countPreamble s).dec.hiclass = s.dec.hiclass := rfl

/-! ## reverseBitOrder() (R146) -/

@[simp] theorem reverseBitOrder_params (s : State) : (reverseBitOrder s).params = s.params := rfl
@[simp] theorem reverseBitOrder_dec (s : State) : (reverseBitOrder s).dec = s.dec := rfl
@[simp] theorem reverseBitOrder_fv (s : State) : (reverseBitOrder s).fv = s.fv := rfl
@[simp] theorem reverseBitOrder_flen (s : State) : (reverseBitOrder s).flen = s.flen := rfl
@[simp] theorem reverseBitOrder_lastEvt (s : State) : (reverseBitOrder s).lastEvt = s.lastEvt := rfl
@[simp] theorem reverseBitOrder_stickyIll (s : State) : (reverseBitOrder s).stickyIll = s.stickyIll := rfl
@[simp] theorem reverseBitOrder_dirty (s : State) : (reverseBitOrder s).dirty = s.dirty := rfl
@[simp] theorem reverseBitOrder_probe (s : State) : (reverseBitOrder s).probe = s.probe := rfl
@[simp] theorem reverseBitOrder_station (s : State) : (reverseBitOrder s).station = s.station := rfl
@[simp] theorem reverseBitOrder_power (s : State) : (reverseBitOrder s).power = s.power := rfl
@[simp] theorem reverseBitOrder_txid (s : State) : (reverseBitOrder s).txid = s.txid := rfl
@[simp] theorem reverseBitOrder_rainBase (s : State) : (reverseBitOrder s).rainBase = s.rainBase := rfl
@[simp] theorem reverseBitOrder_rainValid (s : State) : (reverseBitOrder s).rainValid = s.rainValid := rfl
@[simp] theorem reverseBitOrder_commands (s : State) : (reverseBitOrder s).commands = s.commands := rfl
@[simp] theorem reverseBitOrder_response (s : State) : (reverseBitOrder s).response = s.response := rfl
@[simp] theorem reverseBitOrder_freeCtr (s : State) : (reverseBitOrder s).freeCtr = s.freeCtr := rfl
@[simp] theorem reverseBitOrder_acc_buf (s : State) : (reverseBitOrder s).acc.buf = Memory.mapFirst rev8 s.acc.pos.toNat s.acc.buf := rfl
@[simp] theorem reverseBitOrder_acc_pos (s : State) : (reverseBitOrder s).acc.pos = s.acc.pos := rfl
@[simp] theorem reverseBitOrder_acc_nbits (s : State) : (reverseBitOrder s).acc.nbits = s.acc.nbits := rfl
@[simp] theorem reverseBitOrder_acc_total (s : State) : (reverseBitOrder s).acc.total = s.acc.total := rfl
@[simp] theorem reverseBitOrder_acc_toggle (s : State) : (reverseBitOrder s).acc.toggle = s.acc.toggle := rfl

/-! ## reverseNibbles() (R148) -/

@[simp] theorem reverseNibbles_params (s : State) : (reverseNibbles s).params = s.params := rfl
@[simp] theorem reverseNibbles_dec (s : State) : (reverseNibbles s).dec = s.dec := rfl
@[simp] theorem reverseNibbles_fv (s : State) : (reverseNibbles s).fv = s.fv := rfl
@[simp] theorem reverseNibbles_flen (s : State) : (reverseNibbles s).flen = s.flen := rfl
@[simp] theorem reverseNibbles_lastEvt (s : State) : (reverseNibbles s).lastEvt = s.lastEvt := rfl
@[simp] theorem reverseNibbles_stickyIll (s : State) : (reverseNibbles s).stickyIll = s.stickyIll := rfl
@[simp] theorem reverseNibbles_dirty (s : State) : (reverseNibbles s).dirty = s.dirty := rfl
@[simp] theorem reverseNibbles_probe (s : State) : (reverseNibbles s).probe = s.probe := rfl
@[simp] theorem reverseNibbles_station (s : State) : (reverseNibbles s).station = s.station := rfl
@[simp] theorem reverseNibbles_power (s : State) : (reverseNibbles s).power = s.power := rfl
@[simp] theorem reverseNibbles_txid (s : State) : (reverseNibbles s).txid = s.txid := rfl
@[simp] theorem reverseNibbles_rainBase (s : State) : (reverseNibbles s).rainBase = s.rainBase := rfl
@[simp] theorem reverseNibbles_rainValid (s : State) : (reverseNibbles s).rainValid = s.rainValid := rfl
@[simp] theorem reverseNibbles_commands (s : State) : (reverseNibbles s).commands = s.commands := rfl
@[simp] theorem reverseNibbles_response (s : State) : (reverseNibbles s).response = s.response := rfl
@[simp] theorem reverseNibbles_freeCtr (s : State) : (reverseNibbles s).freeCtr = s.freeCtr := rfl
@[simp] theorem reverseNibbles_acc_buf (s : State) : (reverseNibbles s).acc.buf = Memory.mapFirst swapNibbles s.acc.pos.toNat s.acc.buf := rfl
@[simp] theorem reverseNibbles_acc_pos (s : State) : (reverseNibbles s).acc.pos = s.acc.pos := rfl
@[simp] theorem reverseNibbles_acc_nbits (s : State) : (reverseNibbles s).acc.nbits = s.acc.nbits := rfl
@[simp] theorem reverseNibbles_acc_total (s : State) : (reverseNibbles s).acc.total = s.acc.total := rfl
@[simp] theorem reverseNibbles_acc_toggle (s : State) : (reverseNibbles s).acc.toggle = s.acc.toggle := rfl

/-! ## alignTail() (R150) -/

@[simp] theorem alignTail_params (m : BitVec 8) (s : State) : (alignTail m s).params = s.params := rfl
@[simp] theorem alignTail_dec (m : BitVec 8) (s : State) : (alignTail m s).dec = s.dec := rfl
@[simp] theorem alignTail_fv (m : BitVec 8) (s : State) : (alignTail m s).fv = s.fv := rfl
@[simp] theorem alignTail_flen (m : BitVec 8) (s : State) : (alignTail m s).flen = s.flen := rfl
@[simp] theorem alignTail_lastEvt (m : BitVec 8) (s : State) : (alignTail m s).lastEvt = s.lastEvt := rfl
@[simp] theorem alignTail_stickyIll (m : BitVec 8) (s : State) : (alignTail m s).stickyIll = s.stickyIll := rfl
@[simp] theorem alignTail_dirty (m : BitVec 8) (s : State) : (alignTail m s).dirty = s.dirty := rfl
@[simp] theorem alignTail_probe (m : BitVec 8) (s : State) : (alignTail m s).probe = s.probe := rfl
@[simp] theorem alignTail_station (m : BitVec 8) (s : State) : (alignTail m s).station = s.station := rfl
@[simp] theorem alignTail_power (m : BitVec 8) (s : State) : (alignTail m s).power = s.power := rfl
@[simp] theorem alignTail_txid (m : BitVec 8) (s : State) : (alignTail m s).txid = s.txid := rfl
@[simp] theorem alignTail_rainBase (m : BitVec 8) (s : State) : (alignTail m s).rainBase = s.rainBase := rfl
@[simp] theorem alignTail_rainValid (m : BitVec 8) (s : State) : (alignTail m s).rainValid = s.rainValid := rfl
@[simp] theorem alignTail_commands (m : BitVec 8) (s : State) : (alignTail m s).commands = s.commands := rfl
@[simp] theorem alignTail_response (m : BitVec 8) (s : State) : (alignTail m s).response = s.response := rfl
@[simp] theorem alignTail_freeCtr (m : BitVec 8) (s : State) : (alignTail m s).freeCtr = s.freeCtr := rfl

/-! ## A write of TXID (R41) -/

@[simp] theorem writeTxid_params (v : BitVec 16) (s : State) : (writeTxid v s).params = s.params := by unfold writeTxid; split <;> rfl
@[simp] theorem writeTxid_dec (v : BitVec 16) (s : State) : (writeTxid v s).dec = s.dec := by unfold writeTxid; split <;> rfl
@[simp] theorem writeTxid_acc (v : BitVec 16) (s : State) : (writeTxid v s).acc = s.acc := by unfold writeTxid; split <;> rfl
@[simp] theorem writeTxid_fv (v : BitVec 16) (s : State) : (writeTxid v s).fv = s.fv := by unfold writeTxid; split <;> rfl
@[simp] theorem writeTxid_flen (v : BitVec 16) (s : State) : (writeTxid v s).flen = s.flen := by unfold writeTxid; split <;> rfl
@[simp] theorem writeTxid_lastEvt (v : BitVec 16) (s : State) : (writeTxid v s).lastEvt = s.lastEvt := by unfold writeTxid; split <;> rfl
@[simp] theorem writeTxid_stickyIll (v : BitVec 16) (s : State) : (writeTxid v s).stickyIll = s.stickyIll := by unfold writeTxid; split <;> rfl
@[simp] theorem writeTxid_dirty (v : BitVec 16) (s : State) : (writeTxid v s).dirty = s.dirty := by unfold writeTxid; split <;> rfl
@[simp] theorem writeTxid_probe (v : BitVec 16) (s : State) : (writeTxid v s).probe = s.probe := by unfold writeTxid; split <;> rfl
@[simp] theorem writeTxid_station (v : BitVec 16) (s : State) : (writeTxid v s).station = s.station := by unfold writeTxid; split <;> rfl
@[simp] theorem writeTxid_power (v : BitVec 16) (s : State) : (writeTxid v s).power = s.power := by unfold writeTxid; split <;> rfl
@[simp] theorem writeTxid_txid (v : BitVec 16) (s : State) : (writeTxid v s).txid = if s.params.proto = .power then v else s.txid := by unfold writeTxid; split <;> rfl
@[simp] theorem writeTxid_rainBase (v : BitVec 16) (s : State) : (writeTxid v s).rainBase = s.rainBase := by unfold writeTxid; split <;> rfl
@[simp] theorem writeTxid_rainValid (v : BitVec 16) (s : State) : (writeTxid v s).rainValid = s.rainValid := by unfold writeTxid; split <;> rfl
@[simp] theorem writeTxid_commands (v : BitVec 16) (s : State) : (writeTxid v s).commands = s.commands := by unfold writeTxid; split <;> rfl
@[simp] theorem writeTxid_response (v : BitVec 16) (s : State) : (writeTxid v s).response = s.response := by unfold writeTxid; split <;> rfl
@[simp] theorem writeTxid_freeCtr (v : BitVec 16) (s : State) : (writeTxid v s).freeCtr = s.freeCtr := by unfold writeTxid; split <;> rfl

/-! ## A write of the rain baseline (R42) -/

@[simp] theorem writeRain_params (b : BitVec 14) (v : Bool) (s : State) : (writeRain b v s).params = s.params := by unfold writeRain; split <;> rfl
@[simp] theorem writeRain_dec (b : BitVec 14) (v : Bool) (s : State) : (writeRain b v s).dec = s.dec := by unfold writeRain; split <;> rfl
@[simp] theorem writeRain_acc (b : BitVec 14) (v : Bool) (s : State) : (writeRain b v s).acc = s.acc := by unfold writeRain; split <;> rfl
@[simp] theorem writeRain_fv (b : BitVec 14) (v : Bool) (s : State) : (writeRain b v s).fv = s.fv := by unfold writeRain; split <;> rfl
@[simp] theorem writeRain_flen (b : BitVec 14) (v : Bool) (s : State) : (writeRain b v s).flen = s.flen := by unfold writeRain; split <;> rfl
@[simp] theorem writeRain_lastEvt (b : BitVec 14) (v : Bool) (s : State) : (writeRain b v s).lastEvt = s.lastEvt := by unfold writeRain; split <;> rfl
@[simp] theorem writeRain_stickyIll (b : BitVec 14) (v : Bool) (s : State) : (writeRain b v s).stickyIll = s.stickyIll := by unfold writeRain; split <;> rfl
@[simp] theorem writeRain_dirty (b : BitVec 14) (v : Bool) (s : State) : (writeRain b v s).dirty = s.dirty := by unfold writeRain; split <;> rfl
@[simp] theorem writeRain_probe (b : BitVec 14) (v : Bool) (s : State) : (writeRain b v s).probe = s.probe := by unfold writeRain; split <;> rfl
@[simp] theorem writeRain_station (b : BitVec 14) (v : Bool) (s : State) : (writeRain b v s).station = s.station := by unfold writeRain; split <;> rfl
@[simp] theorem writeRain_power (b : BitVec 14) (v : Bool) (s : State) : (writeRain b v s).power = s.power := by unfold writeRain; split <;> rfl
@[simp] theorem writeRain_txid (b : BitVec 14) (v : Bool) (s : State) : (writeRain b v s).txid = s.txid := by unfold writeRain; split <;> rfl
@[simp] theorem writeRain_rainBase (b : BitVec 14) (v : Bool) (s : State) : (writeRain b v s).rainBase = if s.params.proto = .station then b else s.rainBase := by unfold writeRain; split <;> rfl
@[simp] theorem writeRain_rainValid (b : BitVec 14) (v : Bool) (s : State) : (writeRain b v s).rainValid = if s.params.proto = .station then v else s.rainValid := by unfold writeRain; split <;> rfl
@[simp] theorem writeRain_commands (b : BitVec 14) (v : Bool) (s : State) : (writeRain b v s).commands = s.commands := by unfold writeRain; split <;> rfl
@[simp] theorem writeRain_response (b : BitVec 14) (v : Bool) (s : State) : (writeRain b v s).response = s.response := by unfold writeRain; split <;> rfl
@[simp] theorem writeRain_freeCtr (b : BitVec 14) (v : Bool) (s : State) : (writeRain b v s).freeCtr = s.freeCtr := by unfold writeRain; split <;> rfl

/-! ## PHASE counted up (R174, R204, R234) -/

@[simp] theorem countPhase_params (s : State) : (countPhase s).params = s.params := by unfold countPhase; split <;> rfl
@[simp] theorem countPhase_acc (s : State) : (countPhase s).acc = s.acc := by unfold countPhase; split <;> rfl
@[simp] theorem countPhase_fv (s : State) : (countPhase s).fv = s.fv := by unfold countPhase; split <;> rfl
@[simp] theorem countPhase_flen (s : State) : (countPhase s).flen = s.flen := by unfold countPhase; split <;> rfl
@[simp] theorem countPhase_lastEvt (s : State) : (countPhase s).lastEvt = s.lastEvt := by unfold countPhase; split <;> rfl
@[simp] theorem countPhase_stickyIll (s : State) : (countPhase s).stickyIll = s.stickyIll := by unfold countPhase; split <;> rfl
@[simp] theorem countPhase_dirty (s : State) : (countPhase s).dirty = s.dirty := by unfold countPhase; split <;> rfl
@[simp] theorem countPhase_probe (s : State) : (countPhase s).probe = s.probe := by unfold countPhase; split <;> rfl
@[simp] theorem countPhase_station (s : State) : (countPhase s).station = s.station := by unfold countPhase; split <;> rfl
@[simp] theorem countPhase_power (s : State) : (countPhase s).power = s.power := by unfold countPhase; split <;> rfl
@[simp] theorem countPhase_txid (s : State) : (countPhase s).txid = s.txid := by unfold countPhase; split <;> rfl
@[simp] theorem countPhase_rainBase (s : State) : (countPhase s).rainBase = s.rainBase := by unfold countPhase; split <;> rfl
@[simp] theorem countPhase_rainValid (s : State) : (countPhase s).rainValid = s.rainValid := by unfold countPhase; split <;> rfl
@[simp] theorem countPhase_commands (s : State) : (countPhase s).commands = s.commands := by unfold countPhase; split <;> rfl
@[simp] theorem countPhase_response (s : State) : (countPhase s).response = s.response := by unfold countPhase; split <;> rfl
@[simp] theorem countPhase_dec_dstate (s : State) : (countPhase s).dec.dstate = s.dec.dstate := by unfold countPhase; split <;> rfl
@[simp] theorem countPhase_dec_pcount (s : State) : (countPhase s).dec.pcount = s.dec.pcount := by unfold countPhase; split <;> rfl
@[simp] theorem countPhase_dec_phase (s : State) : (countPhase s).dec.phase = if s.dec.phase = 255 then Config.freePhase s.freeCtr &&& 0xFE else s.dec.phase + 1 := by unfold countPhase; split <;> rfl
@[simp] theorem countPhase_dec_hiclass (s : State) : (countPhase s).dec.hiclass = s.dec.hiclass := by unfold countPhase; split <;> rfl

/-! ## The reversal at Complete (R124) -/

@[simp] theorem reverseAtComplete_params (s : State) : (reverseAtComplete s).params = s.params := by unfold reverseAtComplete; split <;> rfl
@[simp] theorem reverseAtComplete_dec (s : State) : (reverseAtComplete s).dec = s.dec := by unfold reverseAtComplete; split <;> rfl
@[simp] theorem reverseAtComplete_fv (s : State) : (reverseAtComplete s).fv = s.fv := by unfold reverseAtComplete; split <;> rfl
@[simp] theorem reverseAtComplete_flen (s : State) : (reverseAtComplete s).flen = s.flen := by unfold reverseAtComplete; split <;> rfl
@[simp] theorem reverseAtComplete_lastEvt (s : State) : (reverseAtComplete s).lastEvt = s.lastEvt := by unfold reverseAtComplete; split <;> rfl
@[simp] theorem reverseAtComplete_stickyIll (s : State) : (reverseAtComplete s).stickyIll = s.stickyIll := by unfold reverseAtComplete; split <;> rfl
@[simp] theorem reverseAtComplete_dirty (s : State) : (reverseAtComplete s).dirty = s.dirty := by unfold reverseAtComplete; split <;> rfl
@[simp] theorem reverseAtComplete_probe (s : State) : (reverseAtComplete s).probe = s.probe := by unfold reverseAtComplete; split <;> rfl
@[simp] theorem reverseAtComplete_station (s : State) : (reverseAtComplete s).station = s.station := by unfold reverseAtComplete; split <;> rfl
@[simp] theorem reverseAtComplete_power (s : State) : (reverseAtComplete s).power = s.power := by unfold reverseAtComplete; split <;> rfl
@[simp] theorem reverseAtComplete_txid (s : State) : (reverseAtComplete s).txid = s.txid := by unfold reverseAtComplete; split <;> rfl
@[simp] theorem reverseAtComplete_rainBase (s : State) : (reverseAtComplete s).rainBase = s.rainBase := by unfold reverseAtComplete; split <;> rfl
@[simp] theorem reverseAtComplete_rainValid (s : State) : (reverseAtComplete s).rainValid = s.rainValid := by unfold reverseAtComplete; split <;> rfl
@[simp] theorem reverseAtComplete_commands (s : State) : (reverseAtComplete s).commands = s.commands := by unfold reverseAtComplete; split <;> rfl
@[simp] theorem reverseAtComplete_response (s : State) : (reverseAtComplete s).response = s.response := by unfold reverseAtComplete; split <;> rfl
@[simp] theorem reverseAtComplete_freeCtr (s : State) : (reverseAtComplete s).freeCtr = s.freeCtr := by unfold reverseAtComplete; split <;> rfl
@[simp] theorem reverseAtComplete_acc_buf (s : State) : (reverseAtComplete s).acc.buf = if s.params.rev then Memory.mapFirst rev8 s.acc.pos.toNat s.acc.buf else s.acc.buf := by unfold reverseAtComplete; split <;> rfl
@[simp] theorem reverseAtComplete_acc_pos (s : State) : (reverseAtComplete s).acc.pos = s.acc.pos := by unfold reverseAtComplete; split <;> rfl
@[simp] theorem reverseAtComplete_acc_nbits (s : State) : (reverseAtComplete s).acc.nbits = s.acc.nbits := by unfold reverseAtComplete; split <;> rfl
@[simp] theorem reverseAtComplete_acc_total (s : State) : (reverseAtComplete s).acc.total = s.acc.total := by unfold reverseAtComplete; split <;> rfl
@[simp] theorem reverseAtComplete_acc_toggle (s : State) : (reverseAtComplete s).acc.toggle = s.acc.toggle := by unfold reverseAtComplete; split <;> rfl

/-! ## Leaving Complete (R111) -/

@[simp] theorem leaveComplete_params (s : State) : (leaveComplete s).params = s.params := by unfold leaveComplete; split <;> rfl
@[simp] theorem leaveComplete_dec (s : State) : (leaveComplete s).dec = if s.dec.dstate = .complete then ⟨.idle, 0, 0, .none⟩ else s.dec := by unfold leaveComplete; split <;> rfl
@[simp] theorem leaveComplete_fv (s : State) : (leaveComplete s).fv = s.fv := by unfold leaveComplete; split <;> rfl
@[simp] theorem leaveComplete_flen (s : State) : (leaveComplete s).flen = s.flen := by unfold leaveComplete; split <;> rfl
@[simp] theorem leaveComplete_lastEvt (s : State) : (leaveComplete s).lastEvt = s.lastEvt := by unfold leaveComplete; split <;> rfl
@[simp] theorem leaveComplete_stickyIll (s : State) : (leaveComplete s).stickyIll = s.stickyIll := by unfold leaveComplete; split <;> rfl
@[simp] theorem leaveComplete_dirty (s : State) : (leaveComplete s).dirty = s.dirty := by unfold leaveComplete; split <;> rfl
@[simp] theorem leaveComplete_probe (s : State) : (leaveComplete s).probe = s.probe := by unfold leaveComplete; split <;> rfl
@[simp] theorem leaveComplete_station (s : State) : (leaveComplete s).station = s.station := by unfold leaveComplete; split <;> rfl
@[simp] theorem leaveComplete_power (s : State) : (leaveComplete s).power = s.power := by unfold leaveComplete; split <;> rfl
@[simp] theorem leaveComplete_txid (s : State) : (leaveComplete s).txid = s.txid := by unfold leaveComplete; split <;> rfl
@[simp] theorem leaveComplete_rainBase (s : State) : (leaveComplete s).rainBase = s.rainBase := by unfold leaveComplete; split <;> rfl
@[simp] theorem leaveComplete_rainValid (s : State) : (leaveComplete s).rainValid = s.rainValid := by unfold leaveComplete; split <;> rfl
@[simp] theorem leaveComplete_commands (s : State) : (leaveComplete s).commands = s.commands := by unfold leaveComplete; split <;> rfl
@[simp] theorem leaveComplete_response (s : State) : (leaveComplete s).response = s.response := by unfold leaveComplete; split <;> rfl
@[simp] theorem leaveComplete_freeCtr (s : State) : (leaveComplete s).freeCtr = s.freeCtr := by unfold leaveComplete; split <;> rfl
@[simp] theorem leaveComplete_acc_buf (s : State) : (leaveComplete s).acc.buf = s.acc.buf := by unfold leaveComplete; split <;> rfl
@[simp] theorem leaveComplete_acc_pos (s : State) : (leaveComplete s).acc.pos = if s.dec.dstate = .complete then 0 else s.acc.pos := by unfold leaveComplete; split <;> rfl
@[simp] theorem leaveComplete_acc_nbits (s : State) : (leaveComplete s).acc.nbits = if s.dec.dstate = .complete then 0 else s.acc.nbits := by unfold leaveComplete; split <;> rfl
@[simp] theorem leaveComplete_acc_total (s : State) : (leaveComplete s).acc.total = if s.dec.dstate = .complete then 0 else s.acc.total := by unfold leaveComplete; split <;> rfl
@[simp] theorem leaveComplete_acc_toggle (s : State) : (leaveComplete s).acc.toggle = if s.dec.dstate = .complete then false else s.acc.toggle := by unfold leaveComplete; split <;> rfl

/-! ## pushBit() outside the decoder and the accumulator (R142) -/

@[simp] theorem pushBit_params (b : Bool) (s : State) : ((pushBit b s).1).params = s.params := by unfold pushBit; split <;> rfl
@[simp] theorem pushBit_fv (b : Bool) (s : State) : ((pushBit b s).1).fv = s.fv := by unfold pushBit; split <;> rfl
@[simp] theorem pushBit_flen (b : Bool) (s : State) : ((pushBit b s).1).flen = s.flen := by unfold pushBit; split <;> rfl
@[simp] theorem pushBit_lastEvt (b : Bool) (s : State) : ((pushBit b s).1).lastEvt = s.lastEvt := by unfold pushBit; split <;> rfl
@[simp] theorem pushBit_stickyIll (b : Bool) (s : State) : ((pushBit b s).1).stickyIll = s.stickyIll := by unfold pushBit; split <;> rfl
@[simp] theorem pushBit_dirty (b : Bool) (s : State) : ((pushBit b s).1).dirty = s.dirty := by unfold pushBit; split <;> rfl
@[simp] theorem pushBit_probe (b : Bool) (s : State) : ((pushBit b s).1).probe = s.probe := by unfold pushBit; split <;> rfl
@[simp] theorem pushBit_station (b : Bool) (s : State) : ((pushBit b s).1).station = s.station := by unfold pushBit; split <;> rfl
@[simp] theorem pushBit_power (b : Bool) (s : State) : ((pushBit b s).1).power = s.power := by unfold pushBit; split <;> rfl
@[simp] theorem pushBit_txid (b : Bool) (s : State) : ((pushBit b s).1).txid = s.txid := by unfold pushBit; split <;> rfl
@[simp] theorem pushBit_rainBase (b : Bool) (s : State) : ((pushBit b s).1).rainBase = s.rainBase := by unfold pushBit; split <;> rfl
@[simp] theorem pushBit_rainValid (b : Bool) (s : State) : ((pushBit b s).1).rainValid = s.rainValid := by unfold pushBit; split <;> rfl
@[simp] theorem pushBit_commands (b : Bool) (s : State) : ((pushBit b s).1).commands = s.commands := by unfold pushBit; split <;> rfl
@[simp] theorem pushBit_response (b : Bool) (s : State) : ((pushBit b s).1).response = s.response := by unfold pushBit; split <;> rfl
@[simp] theorem pushBit_freeCtr (b : Bool) (s : State) : ((pushBit b s).1).freeCtr = s.freeCtr := by unfold pushBit; split <;> rfl

/-! ## Counters, case by case -/

theorem countPhase_of_ne {s : State} (h : s.dec.phase ≠ 255) :
    countPhase s = { s with dec := { s.dec with phase := s.dec.phase + 1 } } := by
  rw [countPhase, if_neg h]

/-- Past 255 only the parity of PHASE is known (assumption 4). -/
theorem countPhase_of_last {s : State} (h : s.dec.phase = 255) :
    ∃ v : BitVec 8, v.toNat % 2 = 0 ∧
      countPhase s = { s with dec := { s.dec with phase := v }, freeCtr := s.freeCtr + 1 } := by
  refine ⟨Config.freePhase s.freeCtr &&& 0xFE, ?_, by rw [countPhase, if_pos h]⟩
  have e : ∀ x : BitVec 8, (x &&& 0xFE).toNat % 2 = 0 := by decide
  exact e _

theorem countPreamble_of_ne {s : State} (h : s.dec.pcount ≠ 255) :
    countPreamble s = { s with dec := { s.dec with pcount := s.dec.pcount + 1 } } := by
  rw [countPreamble, if_neg h]

/-- PCOUNT saturates at 255 (R30). -/
theorem countPreamble_sat (s : State) :
    countPreamble s = { s with dec := { s.dec with pcount := BitVec.ofNat 8 (min (s.dec.pcount.toNat + 1) 255) } } := by
  have e : ∀ x : BitVec 8, (if x = 255 then 255 else x + 1) = BitVec.ofNat 8 (min (x.toNat + 1) 255) := by decide
  rw [countPreamble, e]

/-! ## Parameters -/

/-- A reference instance has the values of R5. -/
theorem reference_of_isReference {p : Params} (h : p.isReference = true) :
    p = { Params.reference p.proto p.pmBattMask p.txidSeed p.khNum p.khDen p.calTable p.tFeed with cap := p.cap } :=
  of_decide_eq_true h

end Sys2Proof.Machine
end

