-- ==== Sys2Proof/Laws/Memory.lean ====
section
/-! SUPPORT. The BitBuffer: every operation keeps its CAP bytes, and what a byte reads after each operation. -/

namespace Sys2Proof.Machine

/-! ## Lengths -/

@[simp] theorem Memory.write_length (m : Memory) (i : Nat) (v : Byte) : (Memory.write m i v).length = m.length := by
  simp [Memory.write]

@[simp] theorem Memory.mapFirst_length (f : Byte → Byte) (n : Nat) (m : Memory) :
    (Memory.mapFirst f n m).length = m.length := by
  simp [Memory.mapFirst]

@[simp] theorem Memory.ofInteger_length (m : Memory) (n S : Nat) : (Memory.ofInteger m n S).length = m.length := by
  simp [Memory.ofInteger]

@[simp] theorem Memory.moveDown_length (m : Memory) (k n : Nat) : (Memory.moveDown m k n).length = m.length := by
  simp [Memory.moveDown]

/-! ## The form is kept -/

theorem Memory.wf_iff (cap : BitVec 8) (m : Memory) : Memory.wf cap m = true ↔ m.length = cap.toNat := by
  simp [Memory.wf]

theorem Memory.write_wf {cap : BitVec 8} {m : Memory} (i : Nat) (v : Byte) (h : Memory.wf cap m = true) :
    Memory.wf cap (Memory.write m i v) = true := by
  simpa [Memory.wf] using h

theorem Memory.mapFirst_wf {cap : BitVec 8} {m : Memory} (f : Byte → Byte) (n : Nat) (h : Memory.wf cap m = true) :
    Memory.wf cap (Memory.mapFirst f n m) = true := by
  simpa [Memory.wf] using h

theorem Memory.ofInteger_wf {cap : BitVec 8} {m : Memory} (n S : Nat) (h : Memory.wf cap m = true) :
    Memory.wf cap (Memory.ofInteger m n S) = true := by
  simpa [Memory.wf] using h

theorem Memory.moveDown_wf {cap : BitVec 8} {m : Memory} (k n : Nat) (h : Memory.wf cap m = true) :
    Memory.wf cap (Memory.moveDown m k n) = true := by
  simpa [Memory.wf] using h

theorem Memory.powerOn_wf (p : Params) : Memory.wf p.cap (State.powerOn p).acc.buf = true := by
  simp [Memory.wf, State.powerOn]

/-! ## Reads -/

theorem Memory.read_of_ge {m : Memory} {i : Nat} (h : m.length ≤ i) : Memory.read m i = 0 := by
  simp [Memory.read, h]

theorem Memory.read_of_lt {m : Memory} {i : Nat} (h : i < m.length) : Memory.read m i = m[i] := by
  simp [Memory.read, h]

theorem Memory.read_write_same {m : Memory} {i : Nat} (v : Byte) (h : i < m.length) :
    Memory.read (Memory.write m i v) i = v := by
  simp [Memory.read, Memory.write, h]

theorem Memory.read_write_other {m : Memory} {i j : Nat} (v : Byte) (h : j ≠ i) :
    Memory.read (Memory.write m i v) j = Memory.read m j := by
  simp [Memory.read, Memory.write, Ne.symm h]

theorem Memory.read_mapIdx (m : Memory) (f : Nat → Byte → Byte) {i : Nat} (h : i < m.length) :
    Memory.read (m.mapIdx f) i = f i (Memory.read m i) := by
  simp [Memory.read, h]

theorem Memory.read_mapFirst (m : Memory) {f : Byte → Byte} (h0 : f 0 = 0) (n i : Nat) :
    Memory.read (Memory.mapFirst f n m) i = if i < n then f (Memory.read m i) else Memory.read m i := by
  by_cases h : i < m.length
  · exact Memory.read_mapIdx m _ h
  · rw [Memory.read_of_ge (by simpa using h), Memory.read_of_ge (by simpa using h)]
    split
    · exact h0.symm
    · rfl

theorem Memory.read_ofInteger (m : Memory) (n S : Nat) {i : Nat} (h : i < m.length) :
    Memory.read (Memory.ofInteger m n S) i =
      if i < n then BitVec.ofNat 8 (S >>> (8 * (n - 1 - i))) else Memory.read m i :=
  Memory.read_mapIdx m _ h

theorem Memory.read_moveDown (m : Memory) (k n : Nat) {i : Nat} (h : i < m.length) :
    Memory.read (Memory.moveDown m k n) i = if i < k then Memory.read m (i + n) else Memory.read m i :=
  Memory.read_mapIdx m _ h

/-! ## The byte transforms -/

theorem rev8_bit (b : Byte) (i : Nat) (h : i < 8) : (rev8 b).getLsbD i = b.getLsbD (7 - i) := by
  rw [rev8, BitVec.getLsbD_reverse, BitVec.getMsbD]
  simp [h]

@[simp] theorem rev8_zero : rev8 0 = 0 := by decide

@[simp] theorem rev8_rev8 (b : Byte) : rev8 (rev8 b) = b := by
  simp [rev8]

@[simp] theorem swapNibbles_zero : swapNibbles 0 = 0 := by decide

theorem swapNibbles_toNat : ∀ b : Byte, (swapNibbles b).toNat = b.toNat % 16 * 16 + b.toNat / 16 := by
  decide

@[simp] theorem swapNibbles_swapNibbles : ∀ b : Byte, swapNibbles (swapNibbles b) = b := by
  decide

theorem Memory.mapFirst_mapFirst {f : Byte → Byte} (h : ∀ b, f (f b) = b) (n : Nat) (m : Memory) :
    Memory.mapFirst f n (Memory.mapFirst f n m) = m := by
  apply List.ext_getElem
  · simp
  · intro i h1 h2
    simp only [Memory.mapFirst, List.getElem_mapIdx]
    split <;> simp [h]

/-! ## Bits -/

theorem Memory.bits_succ (m : Memory) (n : Nat) : Memory.bits m (n + 1) = Memory.bits m n ++ [Memory.bit m n] := by
  simp [Memory.bits, List.range_succ]

@[simp] theorem Memory.bits_length (m : Memory) (n : Nat) : (Memory.bits m n).length = n := by
  simp [Memory.bits]

theorem Memory.bits_congr {m m' : Memory} {n : Nat} (h : ∀ j, j < n → Memory.bit m j = Memory.bit m' j) :
    Memory.bits m n = Memory.bits m' n := by
  unfold Memory.bits
  apply List.map_congr_left
  intro j hj
  exact h j (List.mem_range.mp hj)

end Sys2Proof.Machine
end

