-- ==== Sys2Proof/Laws/Accumulator.lean ====
section
/-! SUPPORT. The BitAccumulator's primitives: what each can do, that each keeps AccInv, and the bits held after a push. -/

namespace Sys2Proof.Machine

/-! ## pushBit -/

theorem pushBit_full {s : State} (b : Bool) (h : s.acc.pos = s.params.cap) : pushBit b s = (softReset s, true) := by
  simp [pushBit, h]

/-- The byte a push writes into BUF[POS] (R142). -/
def pushedByte (b : Bool) (s : State) : Byte :=
  (if s.acc.nbits = 0 then 0 else Memory.read s.acc.buf s.acc.pos.toNat) ||| bitInByte b s.acc.nbits

theorem pushBit_room {s : State} (b : Bool) (h : s.acc.pos ≠ s.params.cap) :
    pushBit b s =
      ({ s with acc :=
          { s.acc with
            buf := Memory.write s.acc.buf s.acc.pos.toNat (pushedByte b s)
            total := s.acc.total + 1
            nbits := if s.acc.nbits = 7 then 0 else s.acc.nbits + 1
            pos := if s.acc.nbits = 7 then s.acc.pos + 1 else s.acc.pos } }, false) := by
  simp [pushBit, h, pushedByte]

@[simp] theorem pushBit_ovf (b : Bool) (s : State) : (pushBit b s).2 = decide (s.acc.pos = s.params.cap) := by
  by_cases h : s.acc.pos = s.params.cap
  · simp [pushBit_full b h, h]
  · simp [pushBit_room b h, h]

theorem pushBit_dec (b : Bool) (s : State) :
    (pushBit b s).1.dec = if s.acc.pos = s.params.cap then ⟨.idle, 0, 0, .none⟩ else s.dec := by
  by_cases h : s.acc.pos = s.params.cap
  · simp [pushBit_full b h, h]
  · simp [pushBit_room b h, h]

@[simp] theorem pushBit_buf_length (b : Bool) (s : State) : (pushBit b s).1.acc.buf.length = s.acc.buf.length := by
  by_cases h : s.acc.pos = s.params.cap
  · simp [pushBit_full b h]
  · simp [pushBit_room b h]

theorem pushBit_read_other (b : Bool) (s : State) {a : Nat} (ha : a ≠ s.acc.pos.toNat) :
    Memory.read (pushBit b s).1.acc.buf a = Memory.read s.acc.buf a := by
  by_cases h : s.acc.pos = s.params.cap
  · simp [pushBit_full b h]
  · simp [pushBit_room b h, Memory.read_write_other _ ha]

/-! ## AccInv is kept -/

theorem AccInv.congr {s t : State} (h : AccInv s) (hp : t.params = s.params) (ha : t.acc = s.acc) : AccInv t := by
  obtain ⟨h1, h2, h3, h4, h5⟩ := h
  exact ⟨by rw [hp, ha]; exact h1, by rw [hp, ha]; exact h2, by rw [hp, ha]; exact h3, by rw [ha]; exact h4,
    by rw [ha]; exact h5⟩

theorem AccInv.pos_lt {s : State} (h : AccInv s) (hp : s.acc.pos ≠ s.params.cap) :
    s.acc.pos.toNat < s.params.cap.toNat := by
  have h1 := h.posLe
  bv_omega

theorem AccInv.length_eq {s : State} (h : AccInv s) : s.acc.buf.length = s.params.cap.toNat :=
  (Memory.wf_iff _ _).mp h.bufLen

theorem AccInv.softReset {s : State} (h : AccInv s) : AccInv (softReset s) :=
  ⟨h.bufLen, by simp; bv_omega, by simp, by simp, by simp⟩

theorem bitInByte_bit : ∀ (b : Bool) (n : BitVec 3) (k : Fin 8),
    (bitInByte b n).getLsbD k.val = (b && decide (k.val = 7 - n.toNat)) := by
  decide

/-- The bits of the byte a push writes: the filled ones as they were, the new one, and zeros below it (R142). -/
theorem pushedByte_bit {s : State} (h : AccInv s) (b : Bool) {k : Nat} (hk : k < 8) :
    (pushedByte b s).getLsbD k =
      if k = 7 - s.acc.nbits.toNat then b
      else if k < 7 - s.acc.nbits.toNat then false
      else (Memory.read s.acc.buf s.acc.pos.toNat).getLsbD k := by
  have hn := s.acc.nbits.isLt
  have hb := bitInByte_bit b s.acc.nbits ⟨k, hk⟩
  simp only at hb
  rw [pushedByte, BitVec.getLsbD_or, hb]
  by_cases h0 : s.acc.nbits = 0
  · have h7 : ¬ 7 < k := by omega
    have h0' : s.acc.nbits.toNat = 0 := by simp [h0]
    by_cases e : k = 7
    · simp [h0, e]
    · have : k < 7 := by omega
      simp [h0, e, this]
  · have hu := h.unfilled h0 k
    by_cases e : k = 7 - s.acc.nbits.toNat
    · have := hu (by omega)
      rw [if_neg h0, this, if_pos e]; simp [e]
    · by_cases l : k < 7 - s.acc.nbits.toNat
      · have := hu (by omega)
        rw [if_neg h0, this, if_neg e, if_pos l]; simp [e]
      · rw [if_neg h0, if_neg e, if_neg l]; simp [e]

theorem AccInv.pushBit {s : State} (h : AccInv s) (b : Bool) : AccInv (pushBit b s).1 := by
  by_cases hp : s.acc.pos = s.params.cap
  · rw [pushBit_full b hp]; exact h.softReset
  · have hlt := h.pos_lt hp
    have ht := h.totalEq
    have hn := s.acc.nbits.isLt
    rw [pushBit_room b hp]
    refine ⟨Memory.write_wf _ _ h.bufLen, ?_, ?_, ?_, ?_⟩
    · dsimp only
      split <;> bv_omega
    · dsimp only
      split
      · simp
      · intro h'; exact absurd h' hp
    · dsimp only
      split <;> bv_omega
    · dsimp only
      by_cases h7 : s.acc.nbits = 7
      · simp [h7]
      · rw [if_neg h7, if_neg h7]
        intro _ k hk
        have hk' : (s.acc.nbits + 1).toNat = s.acc.nbits.toNat + 1 := by bv_omega
        rw [Memory.read_write_same _ (by rw [h.length_eq]; exact hlt), pushedByte_bit h b (by omega)]
        rw [if_neg (by omega), if_pos (by omega)]

theorem AccInv.pushManchesterBit {s : State} (h : AccInv s) (v : Bool) : AccInv (pushManchesterBit v s).1 := by
  unfold Machine.pushManchesterBit
  apply AccInv.pushBit
  exact ⟨h.bufLen, h.posLe, h.fullNbits, h.totalEq, h.unfilled⟩

theorem AccInv.reverseBitOrder {s : State} (h : AccInv s) : AccInv (reverseBitOrder s) := by
  refine ⟨Memory.mapFirst_wf _ _ h.bufLen, h.posLe, h.fullNbits, h.totalEq, ?_⟩
  intro h0 k hk
  simp only [Machine.reverseBitOrder, Memory.read_mapFirst _ rev8_zero, Nat.lt_irrefl, if_false]
  exact h.unfilled h0 k hk

theorem AccInv.reverseNibbles {s : State} (h : AccInv s) : AccInv (reverseNibbles s) := by
  refine ⟨Memory.mapFirst_wf _ _ h.bufLen, h.posLe, h.fullNbits, h.totalEq, ?_⟩
  intro h0 k hk
  simp only [Machine.reverseNibbles, Memory.read_mapFirst _ swapNibbles_zero, Nat.lt_irrefl, if_false]
  exact h.unfilled h0 k hk

theorem alignShift_pos {s : State} (h : AccInv s) :
    (alignShift s.acc).pos.toNat = (s.acc.total.toNat + 7) / 8 ∧ (alignShift s.acc).nbits = 0 ∧
      (alignShift s.acc).pos ≤ s.params.cap := by
  have ht := h.totalEq
  have hn := s.acc.nbits.isLt
  have hle := h.posLe
  unfold alignShift
  split
  · rename_i h0
    refine ⟨?_, h0, hle⟩
    rw [ht, h0]; simp; omega
  · rename_i h0
    have hp : s.acc.pos ≠ s.params.cap := fun e => h0 (h.fullNbits e)
    have hlt := h.pos_lt hp
    have h1 : s.acc.nbits.toNat ≠ 0 := by bv_omega
    refine ⟨?_, rfl, ?_⟩
    · have : (s.acc.pos + 1).toNat = s.acc.pos.toNat + 1 := by bv_omega
      simp only [this]; omega
    · dsimp only; bv_omega

theorem alignTruncate_pos (m : BitVec 8) (a : Accumulator) :
    (alignTruncate m a).pos.toNat = (if 0 < m.toNat ∧ m.toNat < a.pos.toNat then m.toNat else a.pos.toNat) ∧
      (alignTruncate m a).nbits = a.nbits ∧ (alignTruncate m a).pos ≤ a.pos := by
  unfold alignTruncate
  by_cases h : 0 < m ∧ m < a.pos
  · have h' : 0 < m.toNat ∧ m.toNat < a.pos.toNat := ⟨by bv_omega, by bv_omega⟩
    simp only [h, h', and_self, if_true, true_and]
    bv_omega
  · have h' : ¬(0 < m.toNat ∧ m.toNat < a.pos.toNat) := by
      rintro ⟨h1, h2⟩; exact h ⟨by bv_omega, by bv_omega⟩
    rw [if_neg h, if_neg h']
    exact ⟨rfl, rfl, BitVec.le_refl _⟩

@[simp] theorem alignTail_buf_length (m : BitVec 8) (s : State) :
    (alignTail m s).acc.buf.length = s.acc.buf.length := by
  simp only [alignTail, alignTruncate, alignShift]
  split <;> split <;> simp

theorem AccInv.alignTail {s : State} (h : AccInv s) (m : BitVec 8) : AccInv (alignTail m s) := by
  obtain ⟨-, h2, h3⟩ := alignShift_pos h
  obtain ⟨-, h5, h6⟩ := alignTruncate_pos m (alignShift s.acc)
  refine ⟨?_, ?_, ?_, ?_, ?_⟩
  · rw [Memory.wf_iff, alignTail_buf_length]; exact h.length_eq
  · simp only [Machine.alignTail]; bv_omega
  · intro _; simp only [Machine.alignTail, h5, h2]
  · simp only [Machine.alignTail, h5, h2]
    bv_omega
  · intro h0
    exact absurd (by simp only [Machine.alignTail, h5, h2]) h0

/-! ## The bits held after a push -/

/-- A push that does not overflow appends its bit (R142). -/
theorem heldBits_pushBit {s : State} (h : AccInv s) (b : Bool) (hp : s.acc.pos ≠ s.params.cap) :
    heldBits (pushBit b s).1 = heldBits s ++ [b] := by
  have hlt := h.pos_lt hp
  have ht := h.totalEq
  have hn := s.acc.nbits.isLt
  have hlen := h.length_eq
  have e1 : (pushBit b s).1.acc.buf = Memory.write s.acc.buf s.acc.pos.toNat (pushedByte b s) := by
    rw [pushBit_room b hp]
  have e2 : (pushBit b s).1.acc.total.toNat = s.acc.total.toNat + 1 := by
    rw [pushBit_room b hp]; dsimp only; bv_omega
  unfold heldBits
  rw [e1, e2, Memory.bits_succ]
  congr 1
  · apply Memory.bits_congr
    intro j hj
    unfold Memory.bit
    by_cases e : j / 8 = s.acc.pos.toNat
    · rw [e, Memory.read_write_same _ (by omega), pushedByte_bit h b (by omega)]
      rw [if_neg (by omega), if_neg (by omega)]
    · rw [Memory.read_write_other _ e]
  · unfold Memory.bit
    have e : s.acc.total.toNat / 8 = s.acc.pos.toNat := by omega
    have e' : s.acc.total.toNat % 8 = s.acc.nbits.toNat := by omega
    rw [e, e', Memory.read_write_same _ (by omega), pushedByte_bit h b (by omega), if_pos rfl]

end Sys2Proof.Machine
end

