-- ==== Sys2Proof/Laws/Encoding.lean ====
section
/-! SUPPORT. The fields of a word, the concatenation of R8, and the operand forms of R91 bit by bit. -/

namespace Sys2Proof

theorem joinBits_bit {m n w : Nat} (hi : BitVec m) (lo : BitVec n) (i : Nat) :
    (joinBits w hi lo).getLsbD i = (decide (i < w) && (if i < n then lo.getLsbD i else hi.getLsbD (i - n))) := by
  simp only [joinBits, BitVec.getLsbD_or, BitVec.getLsbD_shiftLeft, BitVec.getLsbD_setWidth]
  by_cases hw : i < w
  · by_cases hn : i < n
    · simp [hw, hn]
    · have : lo.getLsbD i = false := BitVec.getLsbD_of_ge _ _ (by omega)
      have hw' : i - n < w := by omega
      simp [hw, hn, hw', this]
  · simp [hw]

theorem joinBits_toNat {m n w : Nat} (hi : BitVec m) (lo : BitVec n) (h : m + n ≤ w) :
    (joinBits w hi lo).toNat = hi.toNat * 2 ^ n + lo.toNat := by
  have e : joinBits w hi lo = (hi ++ lo).setWidth w := by
    apply BitVec.eq_of_getLsbD_eq
    intro i hi'
    rw [joinBits_bit, BitVec.getLsbD_setWidth, BitVec.getLsbD_append]
  rw [e, BitVec.toNat_setWidth, BitVec.toNat_append, Nat.mod_eq_of_lt, Nat.shiftLeft_eq,
    ← Nat.shiftLeft_eq, Nat.shiftLeft_add_eq_or_of_lt lo.isLt]
  have h1 := (hi ++ lo).isLt
  rw [BitVec.toNat_append] at h1
  exact Nat.lt_of_lt_of_le h1 (Nat.pow_le_pow_right (by decide) h)

theorem opcOf_wordOf (a : BitVec 8) (b : BitVec 32) : opcOf (wordOf a b) = a := by
  apply BitVec.eq_of_getLsbD_eq
  intro i hi
  have h1 : 32 + i < 40 := by omega
  rw [opcOf, wordOf, BitVec.getLsbD_extractLsb', joinBits_bit]
  simp [hi, h1]

theorem opdOf_wordOf (a : BitVec 8) (b : BitVec 32) : opdOf (wordOf a b) = b := by
  apply BitVec.eq_of_getLsbD_eq
  intro i hi
  have h1 : i < 40 := by omega
  rw [opdOf, wordOf, BitVec.getLsbD_extractLsb', joinBits_bit]
  simp [hi, h1]

theorem wordOf_opcOf_opdOf (w : CommandWord) : wordOf (opcOf w) (opdOf w) = w := by
  apply BitVec.eq_of_getLsbD_eq
  intro i hi
  rw [wordOf, joinBits_bit]
  by_cases h : i < 32
  · simp [hi, h, opdOf]
  · have h1 : i - 32 < 8 := by omega
    have h2 : 32 + (i - 32) = i := by omega
    simp [hi, h, opcOf, h1, h2]

/-! ## Operand forms -/

theorem opdC1_bit (b : Bool) (i : Nat) : (opdC1 b).getLsbD i = if i = 0 then b else false := by
  cases b <;> by_cases h : i = 0 <;> simp [opdC1, h]

theorem opdC8_bit (k : BitVec 8) (i : Nat) : (opdC8 k).getLsbD i = k.getLsbD i := by
  rw [opdC8, BitVec.getLsbD_setWidth]
  by_cases h : i < 32
  · simp [h]
  · rw [BitVec.getLsbD_of_ge k i (by omega)]
    simp

theorem opdCS_bit (id : BitVec 16) (txw rclr : Bool) (i : Nat) :
    (opdCS id txw rclr).getLsbD i =
      if i < 16 then id.getLsbD i else if i = 16 then txw else if i = 17 then rclr else false := by
  simp only [opdCS, joinBits_bit]
  by_cases h : i < 16
  · simp [h]; omega
  · by_cases h2 : i = 16
    · simp [h2]
    · by_cases h3 : i = 17
      · simp [h3]
      · simp [h, h2, h3, show ¬(i - 16 < 2) by omega]

/-! ## Masks of the opcode table -/

/-- A mask acts on the two fields of a word apart. -/
theorem wordOf_and (a m : BitVec 8) (b n : BitVec 32) : wordOf a b &&& wordOf m n = wordOf (a &&& m) (b &&& n) := by
  apply BitVec.eq_of_getLsbD_eq
  intro i hi
  simp only [wordOf, BitVec.getLsbD_and, joinBits_bit]
  by_cases h : i < 32 <;> simp [hi, h]

/-- A word is its row's when its operand has no bit under the row's mask. -/
theorem matchesWord_of_fields {m : String} {a : BitVec 8} {b n : BitVec 32} {fixed mask : CommandWord}
    (hm : mask = wordOf 0xFF n) (hf : fixed = wordOf a 0) (h : b &&& n = 0) :
    OpRow.matchesWord ⟨m, fixed, mask⟩ (wordOf a b) = true := by
  have e : a &&& 0xFF = a := by
    have : ∀ a : BitVec 8, a &&& 0xFF = a := by decide
    exact this a
  rw [OpRow.matchesWord, hm, hf, wordOf_and, h, e]
  simp

theorem opdC1_and (b : Bool) : opdC1 b &&& 0xFFFFFFFE = 0 := by
  cases b <;> rfl

theorem opdC8_and : ∀ k : BitVec 8, opdC8 k &&& 0xFFFFFF00 = 0 := by
  intro k
  apply BitVec.eq_of_getLsbD_eq
  intro i hi
  rw [BitVec.getLsbD_and, opdC8_bit]
  by_cases h : i < 8
  · have hz : ∀ j : Fin 8, (0xFFFFFF00 : BitVec 32).getLsbD j.val = false := by decide
    have hi0 : (0xFFFFFF00 : BitVec 32).getLsbD i = false := hz ⟨i, h⟩
    rw [hi0]
    simp
  · rw [BitVec.getLsbD_of_ge k i (by omega)]
    simp

theorem opdCS_and (id : BitVec 16) (txw rclr : Bool) : opdCS id txw rclr &&& 0xFFFC0000 = 0 := by
  apply BitVec.eq_of_getLsbD_eq
  intro i hi
  rw [BitVec.getLsbD_and]
  by_cases h : i < 18
  · have hz : ∀ j : Fin 18, (0xFFFC0000 : BitVec 32).getLsbD j.val = false := by decide
    have hi0 : (0xFFFC0000 : BitVec 32).getLsbD i = false := hz ⟨i, h⟩
    rw [hi0]
    simp
  · rw [opdCS_bit, if_neg (by omega), if_neg (by omega), if_neg (by omega)]
    simp

end Sys2Proof
end

