-- ==== Sys2Proof/Laws/Feed.lean ====
section
/-! SUPPORT. FEED: everything one pulse can do, said once (feedStep_cases), and what the parsers can change. -/

namespace Sys2Proof.Machine

/-! ## Pulses taken in turn -/

@[simp] theorem alternate_nil (lows : List Duration) : alternate [] lows = lows := by
  simp [alternate]

@[simp] theorem alternate_cons_cons (h l : Duration) (highs lows : List Duration) :
    alternate (h :: highs) (l :: lows) = h :: l :: alternate highs lows := rfl

@[simp] theorem alternate_right_nil (highs : List Duration) : alternate highs [] = highs := by
  cases highs <;> rfl

@[simp] theorem alternate_length (highs lows : List Duration) :
    (alternate highs lows).length = highs.length + lows.length := by
  induction highs generalizing lows with
  | nil => simp
  | cons h highs ih =>
    cases lows with
    | nil => simp
    | cons l lows => simp [ih]; omega

/-! ## The parsers change output registers, DIRTY, TXID and the rain baseline, and nothing else -/

/-- Everything but the output registers, DIRTY, TXID and the rain baseline is the same in both states. -/
structure SameCore (s t : State) : Prop where
  params    : t.params = s.params
  dec       : t.dec = s.dec
  acc       : t.acc = s.acc
  fv        : t.fv = s.fv
  flen      : t.flen = s.flen
  lastEvt   : t.lastEvt = s.lastEvt
  stickyIll : t.stickyIll = s.stickyIll
  commands  : t.commands = s.commands
  response  : t.response = s.response
  freeCtr   : t.freeCtr = s.freeCtr

theorem parseProbe_sameCore (s : State) : SameCore s (parseProbe s).1 := by
  unfold parseProbe
  dsimp only
  split
  · exact ⟨rfl, rfl, rfl, rfl, rfl, rfl, rfl, rfl, rfl, rfl⟩
  · split <;> exact ⟨rfl, rfl, rfl, rfl, rfl, rfl, rfl, rfl, rfl, rfl⟩

theorem rainStep_sameCore (c : BitVec 14) (s : State) : SameCore s (rainStep c s) := by
  unfold rainStep
  dsimp only
  split <;> constructor <;> simp

theorem parseStation_sameCore (s : State) : SameCore s (parseStation s).1 := by
  unfold parseStation
  dsimp only
  split
  · exact ⟨rfl, rfl, rfl, rfl, rfl, rfl, rfl, rfl, rfl, rfl⟩
  · split
    · exact ⟨(rainStep_sameCore _ _).params, (rainStep_sameCore _ _).dec, (rainStep_sameCore _ _).acc,
        (rainStep_sameCore _ _).fv, (rainStep_sameCore _ _).flen, (rainStep_sameCore _ _).lastEvt,
        (rainStep_sameCore _ _).stickyIll, (rainStep_sameCore _ _).commands, (rainStep_sameCore _ _).response,
        (rainStep_sameCore _ _).freeCtr⟩
    · split <;> exact ⟨rfl, rfl, rfl, rfl, rfl, rfl, rfl, rfl, rfl, rfl⟩

theorem extractPower_sameCore (corr : BitVec 16) (s : State) : SameCore s (extractPower corr s).1 := by
  unfold extractPower
  dsimp only
  split
  · split <;> exact ⟨rfl, rfl, rfl, rfl, rfl, rfl, rfl, rfl, rfl, rfl⟩
  all_goals exact ⟨rfl, rfl, rfl, rfl, rfl, rfl, rfl, rfl, rfl, rfl⟩

theorem parsePower_sameCore (s : State) : SameCore s (parsePower s).1 := by
  unfold parsePower
  dsimp only
  split
  · constructor <;> simp
  · split
    · exact ⟨rfl, rfl, rfl, rfl, rfl, rfl, rfl, rfl, rfl, rfl⟩
    · exact extractPower_sameCore _ _

theorem parseFrame_sameCore (s : State) : SameCore s (parseFrame s).1 := by
  unfold parseFrame
  split
  · exact parseProbe_sameCore s
  · exact parseStation_sameCore s
  · exact parsePower_sameCore s

/-! ## Completion -/

/-- What CompleteFrame() leaves outside the readings (R124). -/
theorem completeFrame_core (s : State) :
    SameCore (latchFrame (reverseAtComplete s)) (completeFrame s).state ∧ (completeFrame s).ready = true :=
  ⟨parseFrame_sameCore _, rfl⟩

/-! ## Everything one pulse can do -/

/-- The state in which a bit `b` of a frame has been pushed and its phase counted (R174, R204, R234), before completion. -/
def framedBit (b : Bool) (s : State) : State :=
  match s.params.proto with
  | .probe => countPhase (pushBit b { s with dec := { s.dec with hiclass := .none } }).1
  | .station => countPhase (pushBit b s).1
  | .power => (pushBit b (countPhase s)).1

theorem softReset_softReset (s : State) : softReset (softReset s) = softReset s := rfl

theorem probeFraming_cases (d : Duration) (s : State) (hp : s.params.proto = .probe) :
    (∃ e, (e = .outOfWindow ∨ e = .bitMismatch) ∧ probeFraming completeFrame d s = reject e s) ∨
    (s.dec.phase.toNat % 2 = 0 ∧ ∃ c, c ≠ .none ∧
      probeFraming completeFrame d s = ⟨countPhase { s with dec := { s.dec with hiclass := c } }, false, .none⟩) ∨
    (s.dec.phase.toNat % 2 = 1 ∧ s.acc.pos = s.params.cap ∧
      probeFraming completeFrame d s = ⟨softReset s, false, .overflow⟩) ∨
    (s.dec.phase.toNat % 2 = 1 ∧ s.acc.pos ≠ s.params.cap ∧ ∃ b,
      (((framedBit b s).dec.phase ≠ s.params.prPhases ∧ probeFraming completeFrame d s = ⟨framedBit b s, false, .none⟩) ∨
        ((framedBit b s).dec.phase = s.params.prPhases ∧ probeFraming completeFrame d s = completeFrame (framedBit b s)))) := by
  unfold probeFraming
  split
  · exact .inl ⟨_, .inl rfl, rfl⟩
  · rename_i hc
    by_cases h0 : s.dec.phase.toNat % 2 = 0
    · rw [if_pos h0]
      exact .inr (.inl ⟨h0, _, hc, rfl⟩)
    · rw [if_neg h0]
      have h1 : s.dec.phase.toNat % 2 = 1 := by omega
      split
      · exact .inl ⟨_, .inr rfl, rfl⟩
      · rename_i b _
        by_cases hf : s.acc.pos = s.params.cap
        · refine .inr (.inr (.inl ⟨h1, hf, ?_⟩))
          rw [pushBit_full b (s := { s with dec := { s.dec with hiclass := .none } }) hf]
          rfl
        · refine .inr (.inr (.inr ⟨h1, hf, b, ?_⟩))
          have hov : (pushBit b { s with dec := { s.dec with hiclass := .none } }).2 = false := by
            simp [hf]
          simp only [hov, framedBit, hp, Bool.false_eq_true, if_false]
          by_cases he : (countPhase (pushBit b { s with dec := { s.dec with hiclass := .none } }).1).dec.phase =
              s.params.prPhases
          · exact .inr ⟨he, by rw [if_pos he]⟩
          · exact .inl ⟨he, by rw [if_neg he]⟩

theorem stationFraming_cases (d : Duration) (s : State) (hp : s.params.proto = .station) :
    (stationFraming completeFrame d s = reject .outOfWindow s) ∨
    (s.dec.phase.toNat % 2 = 1 ∧ stationFraming completeFrame d s = ⟨countPhase s, false, .none⟩) ∨
    (s.dec.phase.toNat % 2 = 0 ∧ s.acc.pos = s.params.cap ∧
      stationFraming completeFrame d s = ⟨softReset s, false, .overflow⟩) ∨
    (s.dec.phase.toNat % 2 = 0 ∧ s.acc.pos ≠ s.params.cap ∧ ∃ b,
      (((framedBit b s).acc.total ≠ s.params.stBits ∧ stationFraming completeFrame d s = ⟨framedBit b s, false, .none⟩) ∨
        ((framedBit b s).acc.total = s.params.stBits ∧
          stationFraming completeFrame d s = completeFrame (framedBit b s)))) := by
  unfold stationFraming
  by_cases h0 : s.dec.phase.toNat % 2 = 1
  · rw [if_pos h0]
    exact .inr (.inl ⟨h0, rfl⟩)
  · rw [if_neg h0]
    have h1 : s.dec.phase.toNat % 2 = 0 := by omega
    split
    · exact .inl rfl
    · rename_i b _
      by_cases hf : s.acc.pos = s.params.cap
      · refine .inr (.inr (.inl ⟨h1, hf, ?_⟩))
        rw [pushBit_full b hf]
        rfl
      · refine .inr (.inr (.inr ⟨h1, hf, b, ?_⟩))
        have hov : (pushBit b s).2 = false := by simp [hf]
        simp only [hov, framedBit, hp, Bool.false_eq_true, if_false]
        by_cases he : (countPhase (pushBit b s).1).acc.total = s.params.stBits
        · exact .inr ⟨he, by rw [if_pos he]⟩
        · exact .inl ⟨he, by rw [if_neg he]⟩

theorem powerFraming_cases (d : Duration) (s : State) (hp : s.params.proto = .power) :
    ((countPhase s).dec.phase.toNat % 2 = 1 ∧ powerFraming completeFrame d s = ⟨countPhase s, false, .none⟩) ∨
    ((countPhase s).dec.phase.toNat % 2 = 0 ∧ s.acc.pos = s.params.cap ∧
      powerFraming completeFrame d s = ⟨softReset (countPhase s), false, .overflow⟩) ∨
    ((countPhase s).dec.phase.toNat % 2 = 0 ∧ s.acc.pos ≠ s.params.cap ∧
      (((framedBit (pmShort s.params d) s).dec.phase ≠ s.params.pmPulses ∧
          powerFraming completeFrame d s = ⟨framedBit (pmShort s.params d) s, false, .none⟩) ∨
        ((framedBit (pmShort s.params d) s).dec.phase = s.params.pmPulses ∧
          powerFraming completeFrame d s = completeFrame (framedBit (pmShort s.params d) s)))) := by
  unfold powerFraming
  dsimp only
  by_cases h0 : (countPhase s).dec.phase.toNat % 2 = 1
  · rw [if_pos h0]
    exact .inl ⟨h0, rfl⟩
  · rw [if_neg h0]
    have h1 : (countPhase s).dec.phase.toNat % 2 = 0 := by omega
    by_cases hf : s.acc.pos = s.params.cap
    · refine .inr (.inl ⟨h1, hf, ?_⟩)
      rw [pushBit_full _ (s := countPhase s) (by simpa using hf)]
      rfl
    · refine .inr (.inr ⟨h1, hf, ?_⟩)
      have hov : (pushBit (pmShort s.params d) (countPhase s)).2 = false := by simp [hf]
      simp only [hov, framedBit, hp, Bool.false_eq_true, if_false]
      by_cases he : (pushBit (pmShort s.params d) (countPhase s)).1.dec.phase = s.params.pmPulses
      · exact .inr ⟨he, by rw [if_pos he]⟩
      · exact .inl ⟨he, by rw [if_neg he]⟩

/-- The frame in `t` has the length at which its protocol completes (R174, R204, R234). -/
def FrameDone (t : State) : Prop :=
  match t.params.proto with
  | .probe => t.dec.phase = t.params.prPhases
  | .station => t.acc.total = t.params.stBits
  | .power => t.dec.phase = t.params.pmPulses

/-- The next pulse of a frame carries a bit: the low phase of PROBE and POWER, the high phase of STATION. -/
def BitPhase (s : State) : Prop :=
  match s.params.proto with
  | .probe => s.dec.phase.toNat % 2 = 1
  | .station => s.dec.phase.toNat % 2 = 0
  | .power => (countPhase s).dec.phase.toNat % 2 = 0

/-- Everything a pulse that arrives in the state `s` can do. -/
inductive PulseCase (s : State) : Fed → Prop where
  /-- Idle or Complete: the pulse begins a frame. -/
  | begin (h : s.dec.dstate = .idle ∨ s.dec.dstate = .complete) : PulseCase s (beginFrame s)
  /-- The pulse fails its classification. -/
  | reject (e : Event)
      (he : e = .outOfWindow ∨ e = .preambleMismatch ∨ (e = .bitMismatch ∧ s.params.proto = .probe)) :
      PulseCase s (reject e s)
  /-- Preamble: the pulse is counted. -/
  | count (h : s.dec.dstate = .preamble) (hn : s.params.proto = .probe → s.dec.pcount < s.params.prPreN) :
      PulseCase s ⟨countPreamble s, false, .none⟩
  /-- PROBE Preamble: the first high phase. -/
  | enterProbe (c : HiClass) (h : s.dec.dstate = .preamble) (hp : s.params.proto = .probe) (hc : c ≠ .none) :
      PulseCase s ⟨{ s with dec := { s.dec with hiclass := c, phase := 1, dstate := .framing } }, false, .none⟩
  /-- STATION Preamble: the first high phase, pushed as a bit. -/
  | enterStation (b : Bool) (h : s.dec.dstate = .preamble) (hp : s.params.proto = .station)
      (hf : s.acc.pos ≠ s.params.cap) :
      PulseCase s
        ⟨{ (pushBit b s).1 with dec := { (pushBit b s).1.dec with phase := 1, dstate := .framing } }, false, .none⟩
  /-- STATION Preamble: the push of the first high phase overflows. -/
  | overflowStation (h : s.dec.dstate = .preamble) (hp : s.params.proto = .station) (hf : s.acc.pos = s.params.cap) :
      PulseCase s ⟨softReset s, false, .overflow⟩
  /-- POWER Preamble: the delimiter. -/
  | enterPower (h : s.dec.dstate = .preamble) (hp : s.params.proto = .power) :
      PulseCase s ⟨{ s with dec := { s.dec with phase := 0, dstate := .framing } }, false, .none⟩
  /-- PROBE Framing: a high phase, latched. -/
  | latch (c : HiClass) (h : s.dec.dstate = .framing) (hp : s.params.proto = .probe) (hb : ¬ BitPhase s) (hc : c ≠ .none) :
      PulseCase s ⟨countPhase { s with dec := { s.dec with hiclass := c } }, false, .none⟩
  /-- STATION and POWER Framing: a phase that carries no bit. -/
  | skip (h : s.dec.dstate = .framing) (hp : s.params.proto ≠ .probe) (hb : ¬ BitPhase s) :
      PulseCase s ⟨countPhase s, false, .none⟩
  /-- Framing: the push overflows; POWER has counted the phase before. -/
  | overflow (h : s.dec.dstate = .framing) (hb : BitPhase s) (hf : s.acc.pos = s.params.cap) :
      PulseCase s ⟨softReset (if s.params.proto = .power then countPhase s else s), false, .overflow⟩
  /-- Framing: a bit is pushed and the frame goes on. -/
  | push (b : Bool) (h : s.dec.dstate = .framing) (hb : BitPhase s) (hf : s.acc.pos ≠ s.params.cap)
      (hd : ¬ FrameDone (framedBit b s)) : PulseCase s ⟨framedBit b s, false, .none⟩
  /-- Framing: a bit is pushed and the frame completes. -/
  | complete (b : Bool) (h : s.dec.dstate = .framing) (hb : BitPhase s) (hf : s.acc.pos ≠ s.params.cap)
      (hd : FrameDone (framedBit b s)) : PulseCase s (completeFrame (framedBit b s))

@[simp] theorem framedBit_params (b : Bool) (s : State) : (framedBit b s).params = s.params := by
  unfold framedBit
  split <;> simp

theorem framedBit_acc (b : Bool) {s : State} (h : s.acc.pos ≠ s.params.cap) :
    (framedBit b s).acc = (pushBit b s).1.acc := by
  unfold framedBit
  split
  · rw [countPhase_acc, pushBit_room b h, pushBit_room b (s := { s with dec := { s.dec with hiclass := .none } }) h]
    rfl
  · rw [countPhase_acc]
  · rw [pushBit_room b h, pushBit_room b (s := countPhase s) (by simpa using h)]
    simp [pushedByte]

theorem framedBit_dec (b : Bool) {s : State} (h : s.acc.pos ≠ s.params.cap) :
    (framedBit b s).dec =
      { (countPhase s).dec with hiclass := if s.params.proto = .probe then .none else s.dec.hiclass } := by
  unfold framedBit
  split
  · rename_i hp
    rw [pushBit_room b (s := { s with dec := { s.dec with hiclass := .none } }) h]
    simp only [hp, if_true, countPhase]
    split <;> rfl
  · rename_i hp
    rw [pushBit_room b h]
    simp only [hp, countPhase]
    split <;> rfl
  · rename_i hp
    rw [pushBit_room b (s := countPhase s) (by simpa using h)]
    simp [hp, countPhase]
    split <;> rfl

/-- A pushed bit changes no status bit and no reading. -/
theorem framedBit_rest (b : Bool) (s : State) :
    (framedBit b s).fv = s.fv ∧ (framedBit b s).flen = s.flen ∧ (framedBit b s).dirty = s.dirty ∧
      (framedBit b s).probe = s.probe ∧ (framedBit b s).station = s.station ∧ (framedBit b s).power = s.power ∧
      (framedBit b s).txid = s.txid ∧ (framedBit b s).rainBase = s.rainBase ∧
      (framedBit b s).rainValid = s.rainValid ∧ (framedBit b s).stickyIll = s.stickyIll ∧
      (framedBit b s).commands = s.commands := by
  unfold framedBit
  split <;> simp

theorem frameDone_iff (b : Bool) (s : State) :
    FrameDone (framedBit b s) ↔
      match s.params.proto with
      | .probe => (framedBit b s).dec.phase = s.params.prPhases
      | .station => (framedBit b s).acc.total = s.params.stBits
      | .power => (framedBit b s).dec.phase = s.params.pmPulses := by
  unfold FrameDone
  rw [framedBit_params]

theorem probeStep_cases (d : Duration) (s : State) (hp : s.params.proto = .probe) (hc : s.dec.dstate ≠ .complete) :
    PulseCase s (probeStep d s) := by
  unfold probeStep
  split
  · rename_i h
    unfold probeIdle
    split
    · exact .begin (.inl h)
    · exact .reject _ (.inl rfl)
  · rename_i h
    unfold probePreamble
    split
    · rename_i hn
      split
      · exact .count h fun _ => hn
      · exact .reject _ (.inr (.inl rfl))
    · split
      · exact .reject _ (.inr (.inl rfl))
      · rename_i c hcl
        exact .enterProbe _ h hp hcl
  · rename_i h
    rcases probeFraming_cases d s hp with ⟨e, he, r⟩ | ⟨hb, c, hcl, r⟩ | ⟨hb, hf, r⟩ | ⟨hb, hf, b, r⟩
    · rw [r]
      rcases he with rfl | rfl
      · exact .reject _ (.inl rfl)
      · exact .reject _ (.inr (.inr ⟨rfl, hp⟩))
    · rw [r]
      exact .latch c h hp (by simp [BitPhase, hp, hb]) hcl
    · rw [r]
      have := PulseCase.overflow h (by simp [BitPhase, hp, hb]) hf
      simpa [hp] using this
    · have hb' : BitPhase s := by simp [BitPhase, hp, hb]
      rcases r with ⟨hd, r⟩ | ⟨hd, r⟩
      · rw [r]
        exact .push b h hb' hf (by rw [frameDone_iff]; simpa [hp] using hd)
      · rw [r]
        exact .complete b h hb' hf (by rw [frameDone_iff]; simpa [hp] using hd)
  · rename_i h
    exact absurd h hc

theorem stationStep_cases (d : Duration) (s : State) (hp : s.params.proto = .station) (hc : s.dec.dstate ≠ .complete) :
    PulseCase s (stationStep d s) := by
  unfold stationStep
  split
  · rename_i h
    unfold stationIdle
    split
    · exact .begin (.inl h)
    · exact .reject _ (.inl rfl)
  · rename_i h
    unfold stationPreamble
    split
    · exact .count h fun e => by simp [hp] at e
    · split
      · by_cases hf : s.acc.pos = s.params.cap
        · rw [pushBit_full _ hf]
          exact .overflowStation h hp hf
        · simpa [hf] using PulseCase.enterStation (stOne s.params d) h hp hf
      · exact .reject _ (.inr (.inl rfl))
  · rename_i h
    rcases stationFraming_cases d s hp with r | ⟨hb, r⟩ | ⟨hb, hf, r⟩ | ⟨hb, hf, b, r⟩
    · rw [r]
      exact .reject _ (.inl rfl)
    · rw [r]
      exact .skip h (by simp [hp]) (by simp [BitPhase, hp, hb])
    · rw [r]
      have := PulseCase.overflow h (by simp [BitPhase, hp, hb]) hf
      simpa [hp] using this
    · have hb' : BitPhase s := by simp [BitPhase, hp, hb]
      rcases r with ⟨hd, r⟩ | ⟨hd, r⟩
      · rw [r]
        exact .push b h hb' hf (by rw [frameDone_iff]; simpa [hp] using hd)
      · rw [r]
        exact .complete b h hb' hf (by rw [frameDone_iff]; simpa [hp] using hd)
  · rename_i h
    exact absurd h hc

theorem powerStep_cases (d : Duration) (s : State) (hp : s.params.proto = .power) (hc : s.dec.dstate ≠ .complete) :
    PulseCase s (powerStep d s) := by
  unfold powerStep
  split
  · rename_i h
    unfold powerIdle
    split
    · exact .begin (.inl h)
    · exact .reject _ (.inl rfl)
  · rename_i h
    unfold powerPreamble
    split
    · exact .count h fun e => by simp [hp] at e
    · split
      · exact .enterPower h hp
      · exact .reject _ (.inr (.inl rfl))
  · rename_i h
    rcases powerFraming_cases d s hp with ⟨hb, r⟩ | ⟨hb, hf, r⟩ | ⟨hb, hf, r⟩
    · rw [r]
      exact .skip h (by simp [hp]) (by simp only [BitPhase, hp]; omega)
    · rw [r]
      have := PulseCase.overflow h (by simp only [BitPhase, hp]; exact hb) hf
      simpa [hp] using this
    · have hb' : BitPhase s := by simp only [BitPhase, hp]; exact hb
      rcases r with ⟨hd, r⟩ | ⟨hd, r⟩
      · rw [r]
        exact .push _ h hb' hf (by rw [frameDone_iff]; simpa [hp] using hd)
      · rw [r]
        exact .complete _ h hb' hf (by rw [frameDone_iff]; simpa [hp] using hd)
  · rename_i h
    exact absurd h hc

theorem protoStep_cases (d : Duration) (s : State) (hc : s.dec.dstate ≠ .complete) : PulseCase s (protoStep d s) := by
  unfold protoStep
  split
  · exact probeStep_cases d s ‹_› hc
  · exact stationStep_cases d s ‹_› hc
  · exact powerStep_cases d s ‹_› hc

/-- Everything a FEED can do (R110, R111): a pulse in Complete acts as in Idle, from the state as it is. -/
theorem feedStep_cases (d : Duration) (s : State) : PulseCase s (feedStep d s) := by
  unfold feedStep leaveComplete
  by_cases h : s.dec.dstate = .complete
  · rw [if_pos h]
    have hd : (softReset s).dec.dstate = .idle := rfl
    have key : protoStep d (softReset s) = beginFrame s ∨ protoStep d (softReset s) = Machine.reject .outOfWindow s := by
      unfold protoStep probeStep stationStep powerStep probeIdle stationIdle powerIdle
      simp only [hd]
      split <;> split <;> first | exact .inl rfl | exact .inr rfl
    rcases key with e | e
    · rw [e]
      exact .begin (.inr h)
    · rw [e]
      exact .reject _ (.inl rfl)
  · rw [if_neg h]
    exact protoStep_cases d s h

end Sys2Proof.Machine
end

