-- ==== Sys2Proof/Laws/PerInstr.lean ====
section
/-! SUPPORT. The family Enc: the word of every command lies on the row of spec/opcode_table.json that has its mnemonic. -/

namespace Sys2Proof.Laws.Enc

/-- The encoded word matches the opcode-table row with the command's mnemonic (R92, R93). -/
def Statement (i : Instr) : Prop :=
  ∃ r ∈ opcodeTable, r.mnemonic = i.mnemonic ∧ r.matchesWord (encode i) = true

theorem feed (d : Duration) : Statement (.feed d) :=
  ⟨opcodeTable[0], by decide, rfl, matchesWord_of_fields (a := 0x01) (n := 0) (by decide) (by decide) BitVec.and_zero⟩

theorem reset : Statement .reset :=
  ⟨opcodeTable[1], by decide, rfl, matchesWord_of_fields (a := 0x02) (n := 0xFFFFFFFF) (by decide) (by decide) rfl⟩

theorem getframe : Statement .getframe :=
  ⟨opcodeTable[2], by decide, rfl, matchesWord_of_fields (a := 0x03) (n := 0xFFFFFFFF) (by decide) (by decide) rfl⟩

theorem readout (rc : Bool) : Statement (.readout rc) :=
  ⟨opcodeTable[3], by decide, rfl,
    matchesWord_of_fields (a := 0x04) (n := 0xFFFFFFFE) (by decide) (by decide) (opdC1_and rc)⟩

theorem ack (k : BitVec 8) : Statement (.ack k) :=
  ⟨opcodeTable[4], by decide, rfl,
    matchesWord_of_fields (a := 0x05) (n := 0xFFFFFF00) (by decide) (by decide) (opdC8_and k)⟩

theorem seed (id : BitVec 16) (txw rclr : Bool) : Statement (.seed id txw rclr) :=
  ⟨opcodeTable[5], by decide, rfl,
    matchesWord_of_fields (a := 0x06) (n := 0xFFFC0000) (by decide) (by decide) (opdCS_and id txw rclr)⟩

theorem readreg (k : BitVec 8) : Statement (.readreg k) :=
  ⟨opcodeTable[6], by decide, rfl,
    matchesWord_of_fields (a := 0x07) (n := 0xFFFFFF00) (by decide) (by decide) (opdC8_and k)⟩

theorem lut (k : BitVec 8) : Statement (.lut k) :=
  ⟨opcodeTable[7], by decide, rfl,
    matchesWord_of_fields (a := 0x08) (n := 0xFFFFFF00) (by decide) (by decide) (opdC8_and k)⟩

theorem accPush (b : Bool) : Statement (.accPush b) :=
  ⟨opcodeTable[8], by decide, rfl,
    matchesWord_of_fields (a := 0x10) (n := 0xFFFFFFFE) (by decide) (by decide) (opdC1_and b)⟩

theorem accPushm (b : Bool) : Statement (.accPushm b) :=
  ⟨opcodeTable[9], by decide, rfl,
    matchesWord_of_fields (a := 0x11) (n := 0xFFFFFFFE) (by decide) (by decide) (opdC1_and b)⟩

theorem accRevbits : Statement .accRevbits :=
  ⟨opcodeTable[10], by decide, rfl, matchesWord_of_fields (a := 0x12) (n := 0xFFFFFFFF) (by decide) (by decide) rfl⟩

theorem accRevnib : Statement .accRevnib :=
  ⟨opcodeTable[11], by decide, rfl, matchesWord_of_fields (a := 0x13) (n := 0xFFFFFFFF) (by decide) (by decide) rfl⟩

theorem accAlign (k : BitVec 8) : Statement (.accAlign k) :=
  ⟨opcodeTable[12], by decide, rfl,
    matchesWord_of_fields (a := 0x14) (n := 0xFFFFFF00) (by decide) (by decide) (opdC8_and k)⟩

end Sys2Proof.Laws.Enc
end

