-- ==== Sys2Proof/Tests/Slice0.lean ====
section
/-! SUPPORT. The model's own tests, with expected values from spec/ (95_test_vectors.md and the worked examples), and for
every obligation that has hypotheses a witness that meets them. -/

namespace Sys2Proof.Tests

open Sys2Proof Sys2Proof.Machine Sys2Proof.Spec

/-! ## WellFormed refuses an ill-formed term of each kind -/

/-- The witness table of R261 is well formed. -/
theorem test_wf_witness_table : CalTable.witness.wf = true := by decide

/-- R260.1: one anchor is not enough. -/
theorem test_wf_one_anchor : CalTable.atLeastTwo ⟨⟨0, 0xCF⟩, []⟩ = false := by decide

/-- R260.3: equal codes are refused. -/
theorem test_wf_equal_codes : CalTable.codesAscend ⟨⟨0, 0xCF⟩, [⟨10, 0xD6⟩, ⟨10, 0xEA⟩]⟩ = false := by decide

/-- R260.4: v_0 = -49 and x_0 < 10. -/
theorem test_wf_first_anchor :
    CalTable.firstOk ⟨⟨0, 0xD0⟩, [⟨10, 0xD6⟩]⟩ = false ∧ CalTable.firstOk ⟨⟨10, 0xCF⟩, [⟨20, 0xEA⟩]⟩ = false := by decide

/-- R260.5: an anchor between (10, -42) and (20, -22) is refused. -/
theorem test_wf_middle_anchors :
    CalTable.middleOk ⟨⟨0, 0xCF⟩, [⟨10, 0xD6⟩, ⟨15, 0xE0⟩, ⟨20, 0xEA⟩]⟩ = false := by decide

/-- R260.6: v_{N-1} = 127 and x_{N-1} < 200. -/
theorem test_wf_last_anchor :
    CalTable.lastOk ⟨⟨0, 0xCF⟩, [⟨190, 0x7E⟩]⟩ = false ∧ CalTable.lastOk ⟨⟨0, 0xCF⟩, [⟨200, 0x7F⟩]⟩ = false := by decide

/-- A table that breaks one constraint is refused as a whole. -/
theorem test_wf_table_refused : CalTable.wf ⟨⟨0, 0xCF⟩, [⟨10, 0xD6⟩, ⟨20, 0xEA⟩, ⟨200, 0x7F⟩]⟩ = false := by decide

/-- R5: CAP = 7 and CAP = 225 are refused, 8 and 224 are not. -/
theorem test_wf_cap :
    ({ Params.vectors .probe with cap := 7 }).wf = false ∧ ({ Params.vectors .probe with cap := 225 }).wf = false ∧
    ({ Params.vectors .probe with cap := 8 }).wf = true ∧ ({ Params.vectors .probe with cap := 224 }).wf = true := by decide

/-- R5: PM_BATT_MASK & 0x03 = 0. -/
theorem test_wf_mask : ({ Params.vectors .power with pmBattMask := 0x01 }).wf = false := by decide

/-- R5: KH is positive. -/
theorem test_wf_kh :
    ({ Params.vectors .power with khNum := 0 }).wf = false ∧ ({ Params.vectors .power with khDen := 0 }).wf = false := by
  decide

/-! ## Decoding: words written out from R90 to R92 -/

/-- 0x01 then D = 600. -/
theorem test_decode_feed :
    decode 0b0000000100000000000000000000001001011000 = .ok (.feed 600) ∧ decode 0x01FFFFFFFF = .ok (.feed 0xFFFFFFFF) := by
  decide
theorem test_decode_reset : decode 0b0000001000000000000000000000000000000000 = .ok .reset := by decide
theorem test_decode_getframe : decode 0b0000001100000000000000000000000000000000 = .ok .getframe := by decide
theorem test_decode_readout :
    decode 0b0000010000000000000000000000000000000001 = .ok (.readout true) ∧ decode 0x0400000000 = .ok (.readout false) := by
  decide
theorem test_decode_ack : decode 0b0000010100000000000000000000000011111111 = .ok (.ack 0xFF) := by decide
/-- OPD[15:0] = ID, OPD[16] = TXW, OPD[17] = RCLR. -/
theorem test_decode_seed :
    decode 0b0000011000000000000000010001001000110100 = .ok (.seed 0x1234 true false) ∧
    decode 0b0000011000000000000000100000000000000000 = .ok (.seed 0 false true) := by decide
theorem test_decode_readreg : decode 0b0000011100000000000000000000000000100000 = .ok (.readreg 0x20) := by decide
theorem test_decode_lut : decode 0b0000100000000000000000000000000000001111 = .ok (.lut 15) := by decide
theorem test_decode_accPush : decode 0b0001000000000000000000000000000000000001 = .ok (.accPush true) := by decide
theorem test_decode_accPushm : decode 0b0001000100000000000000000000000000000000 = .ok (.accPushm false) := by decide
theorem test_decode_accRevbits : decode 0b0001001000000000000000000000000000000000 = .ok .accRevbits := by decide
theorem test_decode_accRevnib : decode 0b0001001100000000000000000000000000000000 = .ok .accRevnib := by decide
theorem test_decode_accAlign : decode 0b0001010000000000000000000000000000000010 = .ok (.accAlign 2) := by decide

/-- The illegal words of 95_test_vectors.md 2.1, by the reason of each. -/
theorem test_decode_illegal :
    decode 0x0000000000 = .error (.unknownOpcode 0x00) ∧ decode 0x0900000000 = .error (.unknownOpcode 0x09) ∧
    decode 0x0200000001 = .error (.reservedBits 0x02) ∧ decode 0x0400000002 = .error (.reservedBits 0x04) ∧
    decode 0x0600040000 = .error (.reservedBits 0x06) ∧ decode 0x0700000100 = .error (.reservedBits 0x07) ∧
    decode 0x1500000000 = .error (.unknownOpcode 0x15) ∧ decode 0xFF00000000 = .error (.unknownOpcode 0xFF) := by decide

theorem test_decodeTableWord :
    decodeTableWord 40 0x0600011234 = some (.seed 0x1234 true false) ∧ decodeTableWord 40 0 = none := by decide

/-- R99's examples of text lines. -/
theorem test_assemble_feed : assemble "FEED 600 ; sync".toList = some 0x0100000258 := by decide
theorem test_assemble_seed : assemble "SEED 0x1234, 1, 0".toList = some 0x0600011234 := by decide
theorem test_assemble_pseudo :
    assemble "ACKALL".toList = some 0x05000000FF ∧ assemble "TAKE".toList = some 0x0400000001 := by decide
theorem test_assemble_refused : assemble "READOUT 2".toList = none := by decide

/-! ## States of one instance under the witness values of 95_test_vectors.md -/

/-- POR of an instance. -/
def por (p : Proto) : State := State.powerOn (Params.vectors p)

/-- A frame just completed: FV = 1, DSTATE = Complete. -/
def done (p : Proto) : State :=
  { por p with dec := ⟨.complete, 7, 112, .none⟩, fv := true, flen := 7 }

/-- The buffer with some first bytes. -/
def buffer (bytes : List Byte) : List Byte := bytes ++ List.replicate (25 - bytes.length) 0

/-- The accumulator with `pos` bytes and `n` bits. -/
def holding (bytes : List Byte) (pos : BitVec 8) (n : BitVec 3) : Accumulator :=
  ⟨buffer bytes, pos, n, 8 * pos.setWidth 16 + n.setWidth 16, false⟩

/-- An instance in Framing. -/
def framing (p : Proto) (phase : BitVec 8) (hi : HiClass) (a : Accumulator) : State :=
  { por p with dec := ⟨.framing, 8, phase, hi⟩, acc := a }

/-- An instance in Preamble. -/
def preamble (p : Proto) (count : BitVec 8) : State :=
  { por p with dec := ⟨.preamble, count, 0, .none⟩ }

/-- POS = CAP: the buffer is full. -/
def full (p : Proto) : State := { por p with acc := { (por p).acc with pos := 25, total := 200, toggle := true } }

/-! ## One step of each command -/

/-- R110's example, and the rejected pulse of 2.2: `FEED 600` and `FEED 0` in a PROBE instance after POR. -/
theorem test_feed_idle :
    (after (.feed 600) (por .probe)).dec.dstate = .preamble ∧
    (after (.feed 600) (por .probe)).response = some (.feed false .none) ∧
    (after (.feed 0) (por .probe)).response = some (.feed false .outOfWindow) ∧
    (after (.feed 0) (por .power)).dec.dstate = .preamble := by decide

/-- R186, R221 (A1), R246 (third frame): the last pulse of each, from the bytes on air before the reversal. -/
def probeLast : State := framing .probe 111 .long (holding [0xA3, 0x48, 0x22, 0x00, 0x10, 0x33, 0xF6] 6 7)
def stationLast : State := framing .station 126 .none (holding [0x48, 0x2C, 0x8E, 0x80, 0x64, 0x00, 0x26, 0x42] 7 7)
def powerLast : State :=
  { framing .power 63 .none (holding [0xAA, 0x5C, 0x84, 0xCA] 3 7) with txid := 0x1234 }

theorem test_feed_completes_probe :
    (after (.feed 200) probeLast).response = some (.feed true .frameOk) ∧
    (after (.feed 200) probeLast).probe = ⟨3, 1100⟩ ∧ (after (.feed 200) probeLast).dirty = 0x03 ∧
    (after (.feed 200) probeLast).acc.buf.take 7 = [0xC5, 0x12, 0x44, 0x00, 0x08, 0xCC, 0xEF] := by decide

theorem test_feed_completes_station :
    (after (.feed 250) stationLast).response = some (.feed true .frameOk) ∧
    (after (.feed 250) stationLast).station = ⟨0x31, 10, 6, 0, 0, 0, false⟩ ∧ (after (.feed 250) stationLast).dirty = 0x03 ∧
    (after (.feed 250) stationLast).rainBase = 100 ∧ (after (.feed 250) stationLast).rainValid = true := by decide

theorem test_feed_completes_power :
    (after (.feed 1000) powerLast).response = some (.feed true .frameOk) ∧
    (after (.feed 1000) powerLast).power = ⟨0, 15, 0xE0, true, 0⟩ ∧ (after (.feed 1000) powerLast).dirty = 0x06 := by decide +kernel

/-- 2.2: RESET in Framing with POS = 3. -/
theorem test_reset :
    (after .reset (framing .probe 48 .none (holding [1, 2, 3] 3 0))).dec = ⟨.idle, 0, 0, .none⟩ ∧
    (after .reset (framing .probe 48 .none (holding [1, 2, 3] 3 0))).acc = holding [1, 2, 3] 0 0 ∧
    (after .reset (done .probe)).fv = true := by decide

/-- 2.2: GETFRAME after POR, and after a frame. -/
theorem test_getframe :
    (after .getframe (por .probe)).response = some (.frame 0 []) ∧
    (after .getframe { done .power with flen := 4, acc := holding [0x55, 0x34, 0x12, 0xD3] 4 0 }).response =
      some (.frame 4 [0x55, 0x34, 0x12, 0xD3]) := by decide

/-- 2.2: READOUT with DIRTY = 0x03. -/
theorem test_readout :
    (after (.readout true) { por .probe with dirty := 0x03, probe := ⟨3, 1100⟩ }).response =
      some (.reading .probe 0x03 (.probe ⟨3, 1100⟩)) ∧
    (after (.readout true) { por .probe with dirty := 0x03 }).dirty = 0 ∧
    (after (.readout false) { por .probe with dirty := 0x03 }).dirty = 0x03 := by decide

/-- R118's example. -/
theorem test_ack : (after (.ack 0x05) { por .station with dirty := 0x3F }).dirty = 0x3A := by decide

/-- 2.2: SEED in each instance. -/
theorem test_seed :
    (after (.seed 0x1234 true false) (por .power)).txid = 0x1234 ∧ (after (.seed 0x1234 true true) (por .probe)).txid = 0 ∧
    (after (.seed 0 false true) { por .station with rainBase := 105, rainValid := true }).rainBase = 0 ∧
    (after (.seed 0 false true) { por .station with rainBase := 105, rainValid := true }).rainValid = false := by decide

/-- 2.2: registers 0x00, 0x0B, 0x0C and 0x0F. -/
theorem test_readreg :
    readReg (por .station) 0x00 = 0x04 ∧ readReg (por .power) 0x00 = 0x08 ∧ readReg (por .probe) 0x0F = 0x19 ∧
    readReg { por .power with txid := 0xBEEF } 0x0B = 0xEF ∧ readReg { por .power with txid := 0xBEEF } 0x0C = 0xBE := by
  decide

/-- R42, R44: RAIN_HI, STAT0 of a latched high phase, and the last byte of BUF with the hole above it. -/
theorem test_readreg_packed :
    readReg { por .station with rainBase := 0x1234, rainValid := true } 0x0E = 0x92 ∧
    readReg (framing .probe 3 .long (holding [] 0 1)) 0x00 = 0x82 ∧
    readReg { por .probe with acc := { (por .probe).acc with buf := List.replicate 24 0 ++ [0xAB] } } 0x38 = 0xAB ∧
    readReg (por .probe) 0x39 = 0 := by decide

/-- 2.2: LUT 15 of any table, and the truncation corner under W. -/
theorem test_lut :
    (after (.lut 15) (por .power)).response = some (.lut 0xE0) ∧ (after (.lut 33) (por .probe)).response = some (.lut 0x09) := by
  decide

/-- R152's example: its third push, after 1, 0. -/
theorem test_accPush :
    (after (.accPush true) { por .probe with acc := holding [0x80] 0 2 }).acc = holding [0xA0] 0 3 := by decide

/-- R143: the push made while POS = CAP. -/
theorem test_accPush_overflow :
    (after (.accPush true) (full .probe)).response = some (.push true) ∧ (after (.accPush true) (full .probe)).acc.pos = 0 := by
  decide

/-- R154's example: its third push, with TOGGLE = 1 and the bits 1, 1 held. -/
theorem test_accPushm :
    (after (.accPushm true) { por .probe with acc := { holding [0xC0] 0 2 with toggle := true } }).acc =
      holding [0xC0] 0 3 := by decide

/-- R156's example. -/
theorem test_accRevbits :
    (after .accRevbits { por .probe with acc := holding [0xC5] 1 0 }).acc = holding [0xA3] 1 0 := by decide

/-- R158's example, with a partial byte that stays as it is. -/
theorem test_accRevnib :
    (after .accRevnib { por .probe with acc := holding [0xC5, 0xC0] 1 2 }).acc = holding [0x5C, 0xC0] 1 2 := by decide

/-- R160's example, both its commands. -/
theorem test_accAlign :
    (after (.accAlign 0) { por .probe with acc := holding [0xAB, 0xC0] 1 4 }).acc = holding [0x0A, 0xBC] 2 0 ∧
    (after (.accAlign 1) { por .probe with acc := holding [0x0A, 0xBC] 2 0 }).acc = holding [0xBC, 0xBC] 1 0 := by decide

/-- R98: an illegal word. -/
theorem test_illegal_word :
    step { por .probe with commands := [0] } =
      .next { por .probe with stickyIll := true, response := some .illegal } := rfl

/-- A step from reset runs the word that withFetchWord places. -/
theorem test_step_from_reset :
    step (State.reset.withFetchWord 40 0x0400000001) = exec (.readout true) State.reset := rfl

/-! ## The consumer's conversions (95_test_vectors.md S3, S4, S10 to S12) -/

theorem test_conversion_probe : probeCelsius 1100 = 10 ∧ fahrenheit 10 = 50 := by
  have h : (1100 : BitVec 11).toNat = 1100 := rfl
  refine ⟨?_, by norm_num [fahrenheit]⟩
  rw [probeCelsius, h]
  norm_num

theorem test_conversion_wind : windMetresPerSecond 10 = 258 / 100 ∧ windMetresPerSecond 0 = 0 := by
  have h : (10 : BitVec 8).toNat = 10 := rfl
  refine ⟨?_, rfl⟩
  rw [windMetresPerSecond, if_neg (by decide), h]
  norm_num

theorem test_conversion_station : stationCelsius 650 = 25 := by
  have h : (650 : BitVec 11).toNat = 650 := rfl
  rw [stationCelsius, h]
  norm_num

/-! ## Witnesses of the hypotheses -/

/-- The invariant holds of the states below, one check per field. -/
theorem inv_of_checks {s : State}
    (h1 : Memory.wf s.params.cap s.acc.buf = true ∧ s.acc.pos ≤ s.params.cap ∧ (s.acc.pos = s.params.cap → s.acc.nbits = 0) ∧
      s.acc.total.toNat = 8 * s.acc.pos.toNat + s.acc.nbits.toNat ∧
      (s.acc.nbits ≠ 0 → ∀ k, k < 8 - s.acc.nbits.toNat → (Memory.read s.acc.buf s.acc.pos.toNat).getLsbD k = false))
    (h2 : s.dirty &&& ~~~(dirtyFields s.params.proto) = 0 ∧ (s.params.proto ≠ .power → s.txid = 0) ∧
      (s.params.proto ≠ .station → s.rainBase = 0 ∧ s.rainValid = false) ∧
      (s.params.proto ≠ .probe → s.dec.hiclass = .none))
    (h3 : (s.params.proto ≠ .probe → s.probe = (State.powerOn s.params).probe) ∧
      (s.params.proto ≠ .station → s.station = (State.powerOn s.params).station) ∧
      (s.params.proto ≠ .power → s.power = (State.powerOn s.params).power) ∧ s.probe.chcode ≠ 1)
    (h4 : (s.dec.dstate = .preamble → s.fv = false) ∧ (s.dec.dstate = .framing → s.fv = false) ∧
      (s.dec.dstate = .complete → s.fv = true) ∧ s.flen ≤ s.params.cap ∧
      (s.dec.dstate = .idle → s.dec.pcount = 0 ∧ s.dec.phase = 0 ∧ s.dec.hiclass = .none) ∧
      (s.dec.dstate = .preamble → s.dec.phase = 0 ∧ s.dec.hiclass = .none)) : StateInv s :=
  ⟨⟨h1.1, h1.2.1, h1.2.2.1, h1.2.2.2.1, h1.2.2.2.2⟩,
    ⟨h2.1, h2.2.1, h2.2.2.1, h2.2.2.2, h3.1, h3.2.1, h3.2.2.1, h3.2.2.2⟩,
    ⟨h4.1, h4.2.1, h4.2.2.1, h4.2.2.2.1, h4.2.2.2.2.1, h4.2.2.2.2.2⟩⟩

theorem por_inv (p : Proto) : StateInv (por p) := by
  cases p <;> exact inv_of_checks (by decide) (by decide) (by decide) (by decide)

theorem done_inv (p : Proto) : StateInv (done p) := by
  cases p <;> exact inv_of_checks (by decide) (by decide) (by decide) (by decide)

theorem full_inv (p : Proto) : StateInv (full p) := by
  cases p <;> exact inv_of_checks (by decide) (by decide) (by decide) (by decide)

theorem probeLast_inv : StateInv probeLast := inv_of_checks (by decide) (by decide) (by decide) (by decide)
theorem stationLast_inv : StateInv stationLast := inv_of_checks (by decide) (by decide) (by decide) (by decide)
theorem powerLast_inv : StateInv powerLast := inv_of_checks (by decide) (by decide) (by decide) (by decide)

theorem probeLast_phases : PhaseInv probeLast := ⟨by decide, by decide, by decide, by decide⟩
theorem powerLast_phases : PhaseInv powerLast := ⟨by decide, by decide, by decide, by decide⟩

theorem illegal_zero : ¬ Legal 0 := by
  rintro ⟨i, h⟩
  have e : decode 0 = .error (.unknownOpcode 0) := by decide
  rw [e] at h
  cases h

theorem wit_DecodeOfEncode : (Instr.seed 0xFFFF true true).wf = true := rfl

theorem wit_EncodeOfDecode : decode 0x060003FFFF = .ok (.seed 0xFFFF true true) := by decide

theorem wit_LegalIffOneTableRow : decode 0x0100000258 = .ok (.feed 600) := by decide

/-- The ends of the reserved ranges; the lowest reserved bit of the forms C0, C1, C8 and CS; a stream. -/
theorem wit_ReservedEncodingsAreIllegal :
    (opcOf 0x0000000000 = 0x00 ∧ 0x09 ≤ opcOf 0x0900000000 ∧ opcOf 0x0F00000000 ≤ 0x0F ∧ 0x15 ≤ opcOf 0x1500000000 ∧
      0x15 ≤ opcOf 0xFF00000000) ∧
    ((0x02, 0xFFFFFFFF) ∈ forms ∧ opcOf 0x0200000001 = 0x02 ∧ opdOf 0x0200000001 &&& 0xFFFFFFFF ≠ 0) ∧
    ((0x04, 0xFFFFFFFE) ∈ forms ∧ opcOf 0x0400000002 = 0x04 ∧ opdOf 0x0400000002 &&& 0xFFFFFFFE ≠ 0) ∧
    ((0x05, 0xFFFFFF00) ∈ forms ∧ opcOf 0x0500000100 = 0x05 ∧ opdOf 0x0500000100 &&& 0xFFFFFF00 ≠ 0) ∧
    ((0x06, 0xFFFC0000) ∈ forms ∧ opcOf 0x0600040000 = 0x06 ∧ opdOf 0x0600040000 &&& 0xFFFC0000 ≠ 0) ∧
    ({ por .probe with commands := [0] } : State).commands = [0] ∧ decode 0 = .error (.unknownOpcode 0) := by decide

theorem wit_StepRunsDecodedCommand :
    ({ por .probe with commands := [0x0100000258] } : State).commands = [0x0100000258] ∧
    decode 0x0100000258 = .ok (.feed 600) := by decide

theorem wit_IllegalWordOnlySetsIll : ({ por .probe with commands := [0] } : State).commands = [0] ∧ ¬ Legal 0 :=
  ⟨rfl, illegal_zero⟩

theorem wit_StepNeverStops : (por .probe).commands = [] := rfl

theorem wit_ParametersAreHardwired : ∃ t, step { por .probe with commands := [0x0200000000] } = .next t := ⟨_, rfl⟩

/-- A set flag, and the two words of the second clause: a legal one and an illegal one. -/
theorem wit_StickyIllRule :
    (∃ t, step { por .probe with stickyIll := true, commands := [0x0200000000] } = .next t) ∧
    (∃ t, step { por .probe with commands := [0] } = .next t) ∧ ¬ Legal 0 := ⟨⟨_, rfl⟩, ⟨_, rfl⟩, illegal_zero⟩

theorem wit_StepKeepsInvariant : StateInv (por .station) ∧ ∃ t, step (por .station) = .next t := ⟨por_inv _, _, rfl⟩

theorem wit_StepKeepsCounterBounds :
    probeLast.params.isReference = true ∧ StateInv probeLast ∧ PhaseInv probeLast ∧ ∃ t, step probeLast = .next t :=
  ⟨by decide, probeLast_inv, probeLast_phases, _, rfl⟩

/-- The last pulse of a frame, and an ACC_* command in Idle with FV = 0. -/
theorem wit_QuietHostNeverOverflows :
    (stationLast.params.isReference = true ∧ stationLast.params.capOk = true ∧ StateInv stationLast ∧
      PhaseInv stationLast ∧ QuietInv stationLast ∧ accQuiet (.feed 250) stationLast = true ∧
      ∃ t, exec (.feed 250) stationLast = .next t) ∧
    accQuiet (.accPush true) (por .probe) = true :=
  ⟨⟨by decide, by decide, stationLast_inv, ⟨by decide, by decide, by decide, by decide⟩,
    ⟨by decide, by decide, by decide, by decide, by decide⟩, rfl, _, rfl⟩, by decide⟩

theorem wit_ResetCommandResult :
    (done .probe |> softReset).dec = ⟨.idle, 0, 0, .none⟩ ∧ (por .probe).acc.pos = 0 ∧ (por .probe).acc.nbits = 0 ∧
    (por .probe).acc.total = 0 ∧ (por .probe).acc.toggle = false := by decide

theorem wit_GetframeResult : StateInv (done .station) ∧ StateInv (por .station) := ⟨done_inv _, por_inv _⟩

/-- A FEED that begins no frame, and a command that is neither FEED nor ACC_*. -/
theorem wit_GetframeIsIdempotent :
    StateInv (done .probe) ∧ (done .probe).fv = true ∧ ¬ IsAcc (.feed 50) ∧ ¬ IsAcc .reset ∧
    (∃ t, exec (.feed 50) (done .probe) = .next t ∧ t.dec.dstate ≠ .preamble) ∧ ∃ t, exec .reset (done .probe) = .next t :=
  ⟨done_inv _, rfl, by simp [IsAcc], by simp [IsAcc], ⟨_, rfl, by decide⟩, _, rfl⟩

theorem wit_ReadoutResult :
    (por .probe).params.proto = .probe ∧ (por .station).params.proto = .station ∧ (por .power).params.proto = .power := by
  decide

/-- The first and the last reserved address, the first and the last byte of BUF, and the hole above it, for CAP = 25. -/
theorem wit_ReadregReturnsTheMap :
    StateInv (por .power) ∧ 0x10 ≤ (0x10 : BitVec 8).toNat ∧ (0x1F : BitVec 8).toNat ≤ 0x1F ∧ 0x20 ≤ (0x20 : BitVec 8).toNat ∧
    (0x38 : BitVec 8).toNat < 0x20 + (por .power).params.cap.toNat ∧
    0x20 + (por .power).params.cap.toNat ≤ (0x39 : BitVec 8).toNat ∧ 0x20 + (por .power).params.cap.toNat ≤ (0xFF : BitVec 8).toNat :=
  ⟨por_inv _, by decide⟩

theorem wit_LutResult : (por .probe).params.calTable.wf = true := by decide

/-- W: just above the last anchor, at the first one, and both ends of the bracket (10, 20]. -/
theorem wit_InterpByBracket :
    CalTable.witness.wf = true ∧ CalTable.witness.last.code < 191 ∧ 0 ≤ CalTable.witness.first.code ∧
    CalTable.witness.anchors =
      [⟨0, BitVec.ofInt 8 (-49)⟩] ++ ⟨10, BitVec.ofInt 8 (-42)⟩ :: ⟨20, BitVec.ofInt 8 (-22)⟩ :: [⟨30, 10⟩, ⟨40, 5⟩, ⟨190, 127⟩] ∧
    (10 : BitVec 8) < 11 ∧ (20 : BitVec 8) ≤ 20 := by decide

/-- W: a rising and a falling segment, at their ends. -/
theorem wit_InterpProperties :
    CalTable.witness.wf = true ∧ (⟨30, 10⟩ : Anchor) ∈ CalTable.witness.anchors ∧
    CalTable.witness.anchors =
      [⟨0, BitVec.ofInt 8 (-49)⟩, ⟨10, BitVec.ofInt 8 (-42)⟩, ⟨20, BitVec.ofInt 8 (-22)⟩] ++ ⟨30, 10⟩ :: ⟨40, 5⟩ :: [⟨190, 127⟩] ∧
    (30 : BitVec 8) ≤ 30 ∧ (30 : BitVec 8) ≤ 40 ∧ (40 : BitVec 8) ≤ 40 ∧ (5 : BitVec 8).toInt ≤ (10 : BitVec 8).toInt ∧
    (BitVec.ofInt 8 (-42)).toInt ≤ (BitVec.ofInt 8 (-22)).toInt ∧ CalTable.witness.last.code < 191 := by decide

theorem wit_InterpExamplesOfAnyTable : CalTable.witness.wf = true := by decide

theorem wit_AccPushResult :
    (full .probe).acc.pos = (full .probe).params.cap ∧ (por .probe).acc.pos ≠ (por .probe).params.cap := by decide

theorem wit_PushAppendsOneBit :
    AccInv probeLast ∧ probeLast.acc.pos ≠ probeLast.params.cap ∧ ∃ t, exec (.accPush true) probeLast = .next t :=
  ⟨probeLast_inv.acc, by decide, _, rfl⟩

/-- A completed byte and a partial one. -/
theorem wit_RevbitsResult : 0 < probeLast.acc.pos.toNat ∧ probeLast.acc.pos.toNat ≤ 6 := by decide

theorem wit_RevnibResult : 5 < probeLast.acc.pos.toNat ∧ probeLast.acc.pos.toNat ≤ 24 := by decide

theorem wit_TransformsAreInvolutions :
    (Instr.accRevbits = .accRevbits ∨ Instr.accRevbits = .accRevnib) ∧
    (Instr.accRevnib = .accRevbits ∨ Instr.accRevnib = .accRevnib) := by decide

theorem wit_AlignTailIsTheBitStream : AccInv stationLast ∧ ∃ t, exec (.accAlign 3) stationLast = .next t :=
  ⟨stationLast_inv.acc, _, rfl⟩

/-- 63 bits in 8 bytes; the first untouched byte; the first byte that truncation to 3 leaves behind. -/
theorem wit_AlignFrame :
    AccInv stationLast ∧ (stationLast.acc.total.toNat + 7) / 8 ≤ 8 ∧ 0 < (3 : BitVec 8).toNat ∧ (3 : BitVec 8).toNat ≤ 3 :=
  ⟨stationLast_inv.acc, by decide⟩

/-- A push that overflows, one that does not, and a byte other than BUF[POS]. -/
theorem wit_AccCommandsFrame :
    IsAcc (.accPush true) ∧ (∃ t, exec (.accPush true) (full .probe) = .next t ∧ t.response = some (.push true)) ∧
    (∃ t, exec (.accPush true) (por .probe) = .next t ∧ t.response ≠ some (.push true)) ∧ 1 ≠ (por .probe).acc.pos.toNat :=
  ⟨.inl ⟨_, rfl⟩, ⟨_, rfl, by decide⟩, ⟨_, rfl, by decide⟩, by decide⟩

/-- One event of each clause. -/
theorem wit_FeedAnswersOneEvent :
    (after (.feed 200) probeLast).response = some (.feed true .frameOk) ∧
    (after (.feed 300) probeLast).response = some (.feed false .bitMismatch) ∧
    (after (.feed 500) { powerLast with acc := holding [0xAA, 0x2C, 0x48, 0xCA] 3 7 }).response =
      some (.feed true .idCaptured) := by decide +kernel

theorem wit_FeedFrame :
    (∃ t, exec (.feed 200) probeLast = .next t ∧ t.response = some (.feed true .frameOk) ∧ t.acc.pos.toNat ≤ 7) ∧
    (∃ t, exec (.feed 600) (por .station) = .next t ∧ t.response = some (.feed false .none)) ∧
    7 ≠ probeLast.acc.pos.toNat := ⟨⟨_, rfl, by decide⟩, ⟨_, rfl, by decide⟩, by decide⟩

theorem wit_OnlyValidFramesChangeReadings :
    ∃ t, exec (.feed 50) (done .probe) = .next t ∧ t.lastEvt ≠ .frameOk ∧ t.lastEvt ≠ .framePartial ∧
      t.lastEvt ≠ .idCaptured := ⟨_, rfl, by decide⟩

/-- FV rising, FV falling, and a command that is no FEED. -/
theorem wit_WhoWritesTheStatus :
    (∃ t, exec (.feed 200) probeLast = .next t ∧ probeLast.fv = false ∧ t.fv = true) ∧
    (∃ t, exec (.feed 600) (done .probe) = .next t ∧ (done .probe).fv = true ∧ t.fv = false) ∧
    ¬ IsFeed (.ack 1) ∧ ¬ IsAcc (.ack 1) :=
  ⟨⟨_, rfl, by decide⟩, ⟨_, rfl, by decide⟩, by simp [IsFeed], by simp [IsAcc]⟩

/-- The ends of the starting windows, in Idle and in Complete. -/
theorem wit_FeedFromIdleOrComplete :
    (por .probe).dec.dstate = .idle ∧ (done .probe).dec.dstate = .complete ∧
    Starts (Params.vectors .probe) 500 ∧ ¬ Starts (Params.vectors .probe) 700 ∧ Starts (Params.vectors .station) 724 ∧
    ¬ Starts (Params.vectors .station) 574 ∧ Starts (Params.vectors .power) 749 ∧ ¬ Starts (Params.vectors .power) 750 := by
  refine ⟨rfl, rfl, ?_⟩
  simp only [Starts, Params.vectors, Params.reference]
  decide

theorem wit_ProbePreambleStep :
    (preamble .probe 6).dec.dstate = .preamble ∧ (6 : BitVec 8) < (preamble .probe 6).params.prPreN ∧
    prSync (Params.vectors .probe) 699 = true ∧ prSync (Params.vectors .probe) 400 = false ∧
    (preamble .probe 7).params.prPreN ≤ 7 ∧ prClass (Params.vectors .probe) 500 = .none ∧
    prClass (Params.vectors .probe) 499 = .long ∧ prClass (Params.vectors .probe) 299 = .short := by decide

theorem wit_ProbeFramingStep :
    probeLast.params.proto = .probe ∧ probeLast.dec.dstate = .framing ∧ prClass (Params.vectors .probe) 99 = .none ∧
    (framing .probe 110 .none (holding [] 0 0)).dec.phase.toNat % 2 = 0 ∧ prClass (Params.vectors .probe) 300 = .long ∧
    probeLast.dec.phase.toNat % 2 = 1 ∧
    ¬(probeLast.dec.hiclass = .long ∧ prClass probeLast.params 300 = .short) ∧
    ¬(probeLast.dec.hiclass = .short ∧ prClass probeLast.params 300 = .long) := by decide

/-- The last bit of a frame, a bit before it, and a full buffer. -/
theorem wit_ProbeCommitsABit :
    AccInv probeLast ∧ (probeLast.dec.phase.toNat % 2 = 1 ∧ probeLast.dec.phase ≠ 255 ∧
      probeLast.acc.pos ≠ probeLast.params.cap ∧ probeLast.dec.hiclass = .long ∧ prClass probeLast.params 299 = .short ∧
      probeLast.dec.phase + 1 = probeLast.params.prPhases) ∧
    (framing .probe 1 .short (holding [] 0 0)).dec.phase + 1 ≠ (Params.vectors .probe).prPhases ∧
    AccInv { full .probe with dec := ⟨.framing, 7, 1, .long⟩ } ∧ (full .probe).acc.pos = (full .probe).params.cap :=
  ⟨probeLast_inv.acc, by decide, by decide,
    ⟨(full_inv .probe).acc.1, (full_inv .probe).acc.2, (full_inv .probe).acc.3, (full_inv .probe).acc.4,
      (full_inv .probe).acc.5⟩, by decide⟩

/-- Every clause, the full buffer of R311 last, with the event it gives. -/
theorem wit_StationPreambleStep :
    (preamble .station 4).dec.dstate = .preamble ∧ stSync (Params.vectors .station) 575 = true ∧
    stSync (Params.vectors .station) 524 = false ∧ (preamble .station 4).params.stPreMin < 4 ∧
    stOne (Params.vectors .station) 524 = true ∧ stZero (Params.vectors .station) 175 = true ∧
    ¬((preamble .station 3).params.stPreMin < 3) ∧ (por .station).acc.pos ≠ (por .station).params.cap ∧
    { full .station with dec := ⟨.preamble, 4, 0, .none⟩ }.acc.pos = (full .station).params.cap ∧
    (after (.feed 450) { full .station with dec := ⟨.preamble, 4, 0, .none⟩ }).response = some (.feed false .overflow) := by
  decide

/-- A low phase, PHASE = 255, a high phase in a gap, a full buffer, the last bit and a bit before it. -/
theorem wit_StationFramingStep :
    AccInv stationLast ∧ AccInv (full .station) ∧ (1 : BitVec 8).toNat % 2 = 1 ∧
    (framing .station 255 .none (holding [] 0 0)).dec.phase = 255 ∧ stationLast.dec.phase.toNat % 2 = 0 ∧
    (stOne stationLast.params 350 = false ∧ stZero stationLast.params 350 = false) ∧ stZero stationLast.params 324 = true ∧
    (full .station).acc.pos = (full .station).params.cap ∧ stationLast.acc.pos ≠ stationLast.params.cap ∧
    stationLast.acc.total + 1 = stationLast.params.stBits ∧
    (holding [0x80] 0 1).total + 1 ≠ (Params.vectors .station).stBits :=
  ⟨stationLast_inv.acc, (full_inv .station).acc, by decide⟩

theorem wit_PowerPreambleStep :
    (preamble .power 8).dec.dstate = .preamble ∧ (749 : Duration) < (Params.vectors .power).pmShort ∧
    ¬((750 : Duration) < (Params.vectors .power).pmShort) ∧ (Params.vectors .power).pmDelim < (1251 : Duration) ∧
    (Params.vectors .power).pmPreMin ≤ (preamble .power 8).dec.pcount ∧
    ¬((Params.vectors .power).pmDelim < (1250 : Duration)) ∧ ¬((Params.vectors .power).pmPreMin ≤ (7 : BitVec 8)) := by decide

/-- A high phase, a full buffer, the last bit and a bit before it. -/
theorem wit_PowerFramingStep :
    AccInv powerLast ∧ AccInv (full .power) ∧ powerLast.params.proto = .power ∧ powerLast.dec.dstate = .framing ∧
    powerLast.dec.phase ≠ 255 ∧ (0 : BitVec 8).toNat % 2 = 0 ∧ powerLast.dec.phase.toNat % 2 = 1 ∧
    (full .power).acc.pos = (full .power).params.cap ∧ powerLast.acc.pos ≠ powerLast.params.cap ∧
    powerLast.dec.phase + 1 = powerLast.params.pmPulses ∧ (61 : BitVec 8) + 1 ≠ powerLast.params.pmPulses :=
  ⟨powerLast_inv.acc, (full_inv .power).acc, by decide⟩

/-- A valid frame with a channel, one with the channel code 1, and an invalid one. -/
theorem wit_ProbeFrameParse :
    (∃ t, exec (.feed 200) probeLast = .next t ∧ t.response = some (.feed true .frameOk)) ∧
    (∃ t, exec (.feed 400) { probeLast with
        dec := ⟨.framing, 8, 111, .short⟩, acc := holding [0xA2, 0x48, 0x22, 0x00, 0x10, 0x33, 0xF6] 6 7 } = .next t ∧
      t.response = some (.feed true .framePartial)) ∧
    (∃ t, exec (.feed 200) { probeLast with acc := holding [0xA3, 0x48, 0x22, 0x00, 0x10, 0x33, 0x76] 6 7 } = .next t ∧
      t.response = some (.feed true .checkFail)) := ⟨⟨_, rfl, by decide⟩, ⟨_, rfl, by decide⟩, ⟨_, rfl, by decide⟩⟩

/-- Type A without and with a baseline, type B (B1), another type, and an invalid frame. -/
theorem wit_StationFrameParse :
    stationLast.params.isReference = true ∧
    (∃ t, exec (.feed 250) stationLast = .next t ∧ t.response = some (.feed true .frameOk) ∧ stationLast.rainValid = false) ∧
    (∃ t, exec (.feed 250) { stationLast with rainBase := 95, rainValid := true } = .next t ∧
      t.response = some (.feed true .frameOk)) ∧
    (∃ t, exec (.feed 250) { stationLast with
        acc := holding [0x48, 0x2C, 0x1E, 0x80, 0xA4, 0x50, 0xB4, 0xD8] 7 7 } = .next t ∧
      t.response = some (.feed true .frameOk) ∧ t.station.traw = 650) ∧
    (∃ t, exec (.feed 250) { stationLast with
        acc := holding [0x48, 0x2C, 0x0E, 0x80, 0x64, 0x00, 0x26, 0x82] 7 7 } = .next t ∧
      t.response = some (.feed true .framePartial)) ∧
    (∃ t, exec (.feed 450) stationLast = .next t ∧ t.response = some (.feed true .checkFail)) :=
  ⟨by decide, ⟨_, rfl, by decide⟩, ⟨_, rfl, by decide⟩, ⟨_, rfl, by decide⟩, ⟨_, rfl, by decide⟩, ⟨_, rfl, by decide⟩⟩

/-- The six frames of R246 by their last pulse, and the second one with bit 0 of its CRC byte flipped. -/
def powerFrame (txid : BitVec 16) (bytes : List Byte) : State :=
  { framing .power 63 .none (holding bytes 3 7) with txid := txid }

theorem wit_PowerFrameParse :
    (∃ t, exec (.feed 500) (powerFrame 0 [0xAA, 0x2C, 0x48, 0xCA]) = .next t ∧
      t.response = some (.feed true .idCaptured) ∧ t.txid = 0x1234) ∧
    (∃ t, exec (.feed 1000) (powerFrame 0x1234 [0xAA, 0xAB, 0x84, 0x04]) = .next t ∧
      t.response = some (.feed true .frameOk) ∧ t.power.pint = 1000) ∧
    (∃ t, exec (.feed 1000) (powerFrame 0x1234 [0xAA, 0x5C, 0x84, 0xCA]) = .next t ∧
      t.response = some (.feed true .frameOk) ∧ t.power.tcode = 15) ∧
    (∃ t, exec (.feed 500) (powerFrame 0x1234 [0xAA, 0xF8, 0x68, 0xBA]) = .next t ∧
      t.response = some (.feed true .frameOk) ∧ t.power.energy = 250) ∧
    (∃ t, exec (.feed 1000) (powerFrame 0x1234 [0xAA, 0xAC, 0x48, 0xA8]) = .next t ∧
      t.response = some (.feed true .framePartial)) ∧
    (∃ t, exec (.feed 1000) (powerFrame 0x1234 [0xAA, 0x1C, 0x84, 0x9E]) = .next t ∧
      t.response = some (.feed true .framePartial)) ∧
    (∃ t, exec (.feed 1000) (powerFrame 0x1234 [0xAA, 0xAB, 0x84, 0x84]) = .next t ∧
      t.response = some (.feed true .checkFail)) :=
  ⟨⟨_, rfl, by decide +kernel⟩, ⟨_, rfl, by decide +kernel⟩, ⟨_, rfl, by decide +kernel⟩, ⟨_, rfl, by decide +kernel⟩, ⟨_, rfl, by decide +kernel⟩,
    ⟨_, rfl, by decide +kernel⟩, ⟨_, rfl, by decide +kernel⟩⟩

theorem wit_ProbeSequenceCompletesItsFrame :
    StateInv (por .probe) ∧ (por .probe).params.proto = .probe ∧ (por .probe).params.isReference = true ∧
    (por .probe).params.capOk = true ∧ (por .probe).dec.dstate = .idle ∧
    [(0xC5 : Byte), 0x12, 0x44, 0x00, 0x08, 0xCC, 0xEF].length = 7 := ⟨por_inv _, by decide⟩

theorem wit_StationSequenceCompletesItsFrame :
    StateInv (done .station) ∧ (done .station).params.proto = .station ∧ (done .station).params.isReference = true ∧
    (done .station).params.capOk = true ∧ (done .station).dec.dstate = .complete ∧
    [(0x12 : Byte), 0x34, 0x71, 0x01, 0x26, 0x00, 0x64, 0x42].length = 8 ∧ 5 ≤ 5 ∧
    (0xFFFFFFFF :: List.replicate 62 (0 : Duration)).length = 63 := ⟨done_inv _, by decide⟩

theorem wit_PowerSequenceCompletesItsFrame :
    StateInv (por .power) ∧ (por .power).params.proto = .power ∧ (por .power).params.isReference = true ∧
    (por .power).params.capOk = true ∧ (por .power).dec.dstate = .idle ∧ [(0x55 : Byte), 0x34, 0x12, 0xD3].length = 4 ∧ 9 ≤ 9 ∧
    (0xFFFFFFFF :: List.replicate 31 (0 : Duration)).length = 32 :=
  ⟨por_inv _, by decide⟩

theorem wit_ResyncPulsesReachIdle :
    probeLast.params.isReference = true ∧ stationLast.params.isReference = true ∧ powerLast.params.isReference = true ∧
    StateInv powerLast ∧ PhaseInv powerLast := ⟨by decide, by decide, by decide, powerLast_inv, powerLast_phases⟩

theorem wit_InstancesAreIndependent :
    (∃ sys', stepInstance 1 [por .probe, { por .power with commands := [0x0100000000] }] = .next sys') ∧ 0 ≠ 1 ∧
    ([por .probe, { por .power with commands := [0x0100000000] }] : System)[1]? =
      some { por .power with commands := [0x0100000000] } := ⟨⟨_, rfl⟩, by decide, rfl⟩

end Sys2Proof.Tests
end

section
/-! SUPPORT. What one step, one command and one reference value say, once each, for the proofs below. -/

namespace Sys2Proof.Machine

open Sys2Proof.Spec

/-! ## One command and one step, inverted -/

/-- No command stops (R284). -/
theorem exec_eq_next_after (i : Instr) (s : State) : exec i s = .next (after i s) := by
  cases i <;> rfl

/-- Everything one step can do (R76, R80, R98): wait on the empty stream, refuse an illegal word, or run a command. -/
theorem step_cases {s t : State} (h : step s = .next t) :
    (s.commands = [] ∧ t = s) ∨
    ∃ w rest, s.commands = w :: rest ∧
      ((∃ e, decode w = .error e ∧ t = illegalCommand { s with commands := rest }) ∨
        ∃ i, decode w = .ok i ∧ t = after i { s with commands := rest }) := by
  unfold step nextCommand at h
  cases hc : s.commands with
  | nil =>
    simp only [hc, Host.Outcome.next.injEq] at h
    exact .inl ⟨rfl, h.symm⟩
  | cons w rest =>
    refine .inr ⟨w, rest, rfl, ?_⟩
    cases hw : decode w with
    | error e =>
      simp only [hc, hw, Host.Outcome.next.injEq] at h
      exact .inl ⟨e, rfl, h.symm⟩
    | ok i =>
      simp only [hc, hw, exec_eq_next_after, Host.Outcome.next.injEq] at h
      exact .inr ⟨i, rfl, h.symm⟩

/-- FEED leaves the parameters and the decoder as its pulse leaves them (R110). -/
theorem after_feed_params_dec (d : Duration) (s : State) :
    (after (.feed d) s).params = (feedStep d s).state.params ∧ (after (.feed d) s).dec = (feedStep d s).state.dec :=
  ⟨rfl, rfl⟩

@[simp] theorem seedCounters_params (id : BitVec 16) (txw rclr : Bool) (s : State) :
    (seedCounters id txw rclr s).params = s.params := by
  unfold seedCounters
  cases txw <;> cases rclr <;> simp

@[simp] theorem seedCounters_dec (id : BitVec 16) (txw rclr : Bool) (s : State) :
    (seedCounters id txw rclr s).dec = s.dec := by
  unfold seedCounters
  cases txw <;> cases rclr <;> simp

/-- A push leaves the decoder as it was, or resets it where the buffer is full (R142). -/
theorem pushBit_dec_cases (b : Bool) (s : State) :
    (pushBit b s).1.dec = s.dec ∨ (pushBit b s).1.dec = ⟨.idle, 0, 0, .none⟩ := by
  rw [pushBit_dec]
  split
  · exact .inr rfl
  · exact .inl rfl

/-- A command other than FEED keeps the parameters, and keeps the decoder or resets it (R112, R142). -/
theorem after_params_dec_of_not_feed {i : Instr} (hi : ¬ IsFeed i) (s : State) :
    (after i s).params = s.params ∧ ((after i s).dec = s.dec ∨ (after i s).dec = ⟨.idle, 0, 0, .none⟩) := by
  cases i with
  | feed d => exact absurd ⟨d, rfl⟩ hi
  | reset => exact ⟨rfl, .inr rfl⟩
  | readout rc => cases rc <;> exact ⟨rfl, .inl rfl⟩
  | seed id txw rclr => exact ⟨seedCounters_params id txw rclr s, .inl (seedCounters_dec id txw rclr s)⟩
  | accPush b => exact ⟨pushBit_params b s, pushBit_dec_cases b s⟩
  | accPushm b => exact ⟨pushBit_params _ _, pushBit_dec_cases _ _⟩
  | getframe | ack | readreg | lut | accRevbits | accRevnib | accAlign => exact ⟨rfl, .inl rfl⟩

/-! ## The reference values of R5 that the counters are bounded by -/

theorem prPreN_of_isReference {p : Params} (h : p.isReference = true) : p.prPreN = 7 :=
  congrArg Params.prPreN (reference_of_isReference h)

theorem prPhases_of_isReference {p : Params} (h : p.isReference = true) : p.prPhases = 112 :=
  congrArg Params.prPhases (reference_of_isReference h)

theorem pmPulses_of_isReference {p : Params} (h : p.isReference = true) : p.pmPulses = 64 :=
  congrArg Params.pmPulses (reference_of_isReference h)

/-! ## Counting below the limits -/

theorem countPhase_toNat {s : State} (h : s.dec.phase.toNat < 255) :
    (countPhase s).dec.phase.toNat = s.dec.phase.toNat + 1 := by
  rw [countPhase_of_ne (by bv_omega)]
  bv_omega

theorem countPreamble_toNat {s : State} (h : s.dec.pcount.toNat < 255) :
    (countPreamble s).dec.pcount.toNat = s.dec.pcount.toNat + 1 := by
  rw [countPreamble_of_ne (by bv_omega)]
  bv_omega

/-! ## PhaseInv, one introduction rule per kind of state -/

/-- PhaseInv speaks of PROTO and the decoder alone. -/
theorem PhaseInv.congr {s t : State} (h : PhaseInv s) (hp : t.params = s.params) (hd : t.dec = s.dec) : PhaseInv t := by
  obtain ⟨hpre, hframe, hlatch, hpower⟩ := h
  constructor <;> rw [hp, hd] <;> assumption

theorem phaseInv_of_outside_frame {t : State} (h : t.dec.dstate = .idle ∨ t.dec.dstate = .complete) : PhaseInv t := by
  constructor <;> rcases h with h | h <;> simp [h]

theorem phaseInv_of_preamble {t : State} (h : t.dec.dstate = .preamble)
    (hn : t.params.proto = .probe → t.dec.pcount ≤ 7) : PhaseInv t :=
  ⟨fun hp _ => hn hp, by simp [h], by simp [h], by simp [h]⟩

theorem phaseInv_of_station {t : State} (h : t.params.proto = .station) : PhaseInv t := by
  constructor <;> simp [h]

theorem phaseInv_of_power {t : State} (hp : t.params.proto = .power) (hle : t.dec.phase.toNat ≤ 63) : PhaseInv t :=
  ⟨by simp [hp], by simp [hp], by simp [hp], fun _ _ => by bv_omega⟩

theorem phaseInv_of_probe_framing {t : State} (hp : t.params.proto = .probe) (h : t.dec.dstate = .framing)
    (hge : 1 ≤ t.dec.phase.toNat) (hle : t.dec.phase.toNat ≤ 111)
    (hl : t.dec.phase.toNat % 2 = 1 ↔ t.dec.hiclass ≠ .none) : PhaseInv t :=
  ⟨by simp [h], fun _ _ => ⟨by bv_omega, by bv_omega⟩, fun _ _ => hl, by simp [hp]⟩

/-! ## What PhaseInv says of a frame, as numbers -/

theorem PhaseInv.probe_bounds {s : State} (h : PhaseInv s) (hp : s.params.proto = .probe) (hf : s.dec.dstate = .framing) :
    1 ≤ s.dec.phase.toNat ∧ s.dec.phase.toNat ≤ 111 := by
  obtain ⟨hge, hle⟩ := h.probeFraming hp hf
  constructor <;> bv_omega

theorem PhaseInv.power_bound {s : State} (h : PhaseInv s) (hp : s.params.proto = .power) (hf : s.dec.dstate = .framing) :
    s.dec.phase.toNat ≤ 63 := by
  have hle := h.powerFraming hp hf
  bv_omega

theorem bitPhase_probe {s : State} (hp : s.params.proto = .probe) : BitPhase s ↔ s.dec.phase.toNat % 2 = 1 := by
  simp [BitPhase, hp]

theorem bitPhase_power {s : State} (hp : s.params.proto = .power) :
    BitPhase s ↔ (countPhase s).dec.phase.toNat % 2 = 0 := by
  simp [BitPhase, hp]

/-! ## One pulse keeps the bounds -/

/-- PROBE latches a high phase at an even PHASE, so at 110 at most (R174). -/
theorem phaseInv_latch {s : State} {c : HiClass} (hi : PhaseInv s) (h : s.dec.dstate = .framing)
    (hp : s.params.proto = .probe) (hb : ¬ BitPhase s) (hc : c ≠ .none) :
    PhaseInv (countPhase { s with dec := { s.dec with hiclass := c } }) := by
  obtain ⟨hge, hle⟩ := hi.probe_bounds hp h
  rw [bitPhase_probe hp] at hb
  have hn : _ = s.dec.phase.toNat + 1 :=
    countPhase_toNat (s := { s with dec := { s.dec with hiclass := c } }) (show s.dec.phase.toNat < 255 by omega)
  refine phaseInv_of_probe_framing (by simpa using hp) (by simpa using h) (by omega) (by omega) ?_
  exact iff_of_true (by omega) (by simpa using hc)

/-- POWER passes over a phase at an even PHASE, so at 62 at most (R234). -/
theorem phaseInv_skip {s : State} (hi : PhaseInv s) (h : s.dec.dstate = .framing) (hp : s.params.proto ≠ .probe)
    (hb : ¬ BitPhase s) : PhaseInv (countPhase s) := by
  cases hq : s.params.proto with
  | probe => exact absurd hq hp
  | station => exact phaseInv_of_station (by simpa using hq)
  | power =>
    have hle := hi.power_bound hq h
    have hn := countPhase_toNat (s := s) (by omega)
    rw [bitPhase_power hq, hn] at hb
    exact phaseInv_of_power (by simpa using hq) (by omega)

/-- A pushed bit that does not end the frame leaves PHASE even and short of the last phase (R174, R234). -/
theorem phaseInv_push {s : State} {b : Bool} (href : s.params.isReference = true) (hi : PhaseInv s)
    (h : s.dec.dstate = .framing) (hb : BitPhase s) (hf : s.acc.pos ≠ s.params.cap)
    (hd : ¬ FrameDone (framedBit b s)) : PhaseInv (framedBit b s) := by
  have hdec := framedBit_dec b hf
  have hph : (framedBit b s).dec.phase = (countPhase s).dec.phase := by rw [hdec]
  rw [frameDone_iff] at hd
  cases hp : s.params.proto with
  | probe =>
    obtain ⟨hge, hle⟩ := hi.probe_bounds hp h
    have hn := countPhase_toNat (s := s) (by omega)
    rw [bitPhase_probe hp] at hb
    simp only [hp, prPhases_of_isReference href, hph] at hd
    have hne : (countPhase s).dec.phase.toNat ≠ 112 := fun e => hd (BitVec.eq_of_toNat_eq e)
    refine phaseInv_of_probe_framing (by simpa using hp) (by simpa [hdec] using h) (by rw [hph]; omega)
      (by rw [hph]; omega) ?_
    exact iff_of_false (by rw [hph]; omega) (by simp [hdec, hp])
  | station => exact phaseInv_of_station (by simpa using hp)
  | power =>
    have hle := hi.power_bound hp h
    have hn := countPhase_toNat (s := s) (by omega)
    simp only [hp, pmPulses_of_isReference href, hph] at hd
    have hne : (countPhase s).dec.phase.toNat ≠ 64 := fun e => hd (BitVec.eq_of_toNat_eq e)
    exact phaseInv_of_power (by simpa using hp) (by rw [hph]; omega)

@[simp] theorem completeFrame_dstate (s : State) : (completeFrame s).state.dec.dstate = .complete := by
  rw [(completeFrame_core s).1.dec, latchFrame_dec_dstate]

theorem phaseInv_pulse {s : State} {f : Fed} (href : s.params.isReference = true) (hi : PhaseInv s)
    (hc : PulseCase s f) : PhaseInv f.state := by
  cases hc with
  | begin => exact phaseInv_of_preamble rfl fun _ => show (0 : BitVec 8) ≤ 7 by decide
  | reject => exact phaseInv_of_outside_frame (.inl rfl)
  | count h hn =>
    refine phaseInv_of_preamble (by simpa using h) fun hp => ?_
    have hlt := hn hp
    rw [prPreN_of_isReference href] at hlt
    have hs := countPreamble_toNat (s := s) (by bv_omega)
    bv_omega
  | enterProbe c h hp hcl =>
    exact phaseInv_of_probe_framing hp rfl (by simp) (by simp) (iff_of_true (by simp) hcl)
  | enterStation b h hp => exact phaseInv_of_station (by simpa using hp)
  | overflowStation => exact phaseInv_of_outside_frame (.inl rfl)
  | enterPower h hp => exact phaseInv_of_power hp (Nat.zero_le 63)
  | latch c h hp hb hcl => exact phaseInv_latch hi h hp hb hcl
  | skip h hp hb => exact phaseInv_skip hi h hp hb
  | overflow => exact phaseInv_of_outside_frame (.inl rfl)
  | push b h hb hf hd => exact phaseInv_push href hi h hb hf hd
  | complete => exact phaseInv_of_outside_frame (.inr (completeFrame_dstate _))

/-! ## One command keeps the bounds -/

theorem phaseInv_after {s : State} (i : Instr) (href : s.params.isReference = true) (hi : PhaseInv s) :
    PhaseInv (after i s) := by
  by_cases hfeed : IsFeed i
  · obtain ⟨d, rfl⟩ := hfeed
    obtain ⟨hp, hd⟩ := after_feed_params_dec d s
    exact (phaseInv_pulse href hi (feedStep_cases d s)).congr hp hd
  · obtain ⟨hp, hd | hd⟩ := after_params_dec_of_not_feed hfeed s
    · exact hi.congr hp hd
    · exact phaseInv_of_outside_frame (.inl (by rw [hd]))

/-- Settles O17, by the cases of one step and, for FEED, of one pulse. -/
theorem stepKeepsCounterBounds : Obligations.StepKeepsCounterBounds := by
  intro s t href _ hi hstep
  obtain ⟨-, rfl⟩ | ⟨w, rest, -, ⟨e, -, rfl⟩ | ⟨i, -, rfl⟩⟩ := step_cases hstep
  · exact hi
  · exact hi.congr rfl rfl
  · exact phaseInv_after i href (hi.congr rfl rfl)

end Sys2Proof.Machine

/-! ## The reset instance -/

namespace Sys2Proof

theorem CalTable.unknown_wf : CalTable.unknown.wf = true := by
  unfold CalTable.unknown
  split
  · assumption
  · decide

theorem Params.reference_isReference (proto : Proto) (battMask : BitVec 8) (txidSeed : BitVec 16) (khNum khDen : Nat)
    (calTable : CalTable) (tFeed : Nat) :
    (Params.reference proto battMask txidSeed khNum khDen calTable tFeed).isReference = true :=
  decide_eq_true rfl

/-- The reference CAP is in range, so a reference instance is well formed where its OPEN parameters are (R5, R260). -/
theorem Params.reference_wf {proto : Proto} {battMask : BitVec 8} {txidSeed : BitVec 16} {khNum khDen : Nat}
    {calTable : CalTable} {tFeed : Nat} (hm : battMask &&& 3 = 0) (hn : 0 < khNum) (hd : 0 < khDen)
    (ht : calTable.wf = true) :
    (Params.reference proto battMask txidSeed khNum khDen calTable tFeed).wf = true := by
  have hcap : (8 : BitVec 8) ≤ 25 ∧ (25 : BitVec 8) ≤ 224 := by decide
  simp only [Params.wf, Params.capOk, Params.maskOk, Params.khOk, Bool.and_eq_true, decide_eq_true_eq]
  exact ⟨⟨⟨hcap, hm⟩, hn, hd⟩, ht⟩

/-- Settles O13: the OPEN parameters of the reset instance are brought into the range R5 and R260 allow. -/
theorem resetInstanceIsWellFormed : Obligations.ResetInstanceIsWellFormed := by
  have hmask : Config.openBattMask &&& 0xFC &&& 3 = 0 := by
    rw [BitVec.and_assoc]
    exact BitVec.and_zero
  exact ⟨rfl, Params.reference_wf hmask (Nat.succ_pos _) (Nat.succ_pos _) CalTable.unknown_wf,
    Params.reference_isReference .., rfl, rfl⟩

end Sys2Proof
end

section
/-! SUPPORT. StateInv, one rule per operation of the state, per pulse and per command; the readings that a pulse leaves,
and the parsers. -/

namespace Sys2Proof.Machine

/-! ## The readings, which only a completed frame, ACK, READOUT and SEED write -/

/-- The parameters, DIRTY, the output registers, TXID and the rain baseline are the same in both states. -/
structure SameReadings (s t : State) : Prop where
  params    : t.params = s.params
  dirty     : t.dirty = s.dirty
  probe     : t.probe = s.probe
  station   : t.station = s.station
  power     : t.power = s.power
  txid      : t.txid = s.txid
  rainBase  : t.rainBase = s.rainBase
  rainValid : t.rainValid = s.rainValid

theorem countPhase_sameReadings (s : State) : SameReadings s (countPhase s) := by
  constructor <;> simp

theorem pushBit_sameReadings (b : Bool) (s : State) : SameReadings s (pushBit b s).1 := by
  constructor <;> simp

theorem framedBit_sameReadings (b : Bool) (s : State) : SameReadings s (framedBit b s) := by
  obtain ⟨-, -, hdirty, hprobe, hstation, hpower, htxid, hbase, hvalid, -, -⟩ := framedBit_rest b s
  exact ⟨framedBit_params b s, hdirty, hprobe, hstation, hpower, htxid, hbase, hvalid⟩

theorem latchFrame_reverseAtComplete_sameReadings (s : State) : SameReadings s (latchFrame (reverseAtComplete s)) := by
  constructor <;> simp

/-- A pulse that completes no frame leaves every reading. -/
theorem sameReadings_pulse {s : State} {f : Fed} (hc : PulseCase s f) :
    SameReadings s f.state ∨
      ∃ b, s.acc.pos ≠ s.params.cap ∧ f = completeFrame (framedBit b s) := by
  cases hc with
  | complete b _ _ hf => exact .inr ⟨b, hf, rfl⟩
  | push b => exact .inl (framedBit_sameReadings b s)
  | enterStation b =>
    have hr := pushBit_sameReadings b s
    exact .inl ⟨hr.params, hr.dirty, hr.probe, hr.station, hr.power, hr.txid, hr.rainBase, hr.rainValid⟩
  | latch => left; constructor <;> simp
  | skip => exact .inl (countPhase_sameReadings s)
  | overflow => left; split <;> constructor <;> simp
  | begin | reject | count | enterProbe | overflowStation | enterPower =>
    exact .inl ⟨rfl, rfl, rfl, rfl, rfl, rfl, rfl, rfl⟩

/-! ## ProtoInv -/

/-- ProtoInv speaks of the readings and of HICLASS. -/
theorem ProtoInv.of_sameReadings {s t : State} (h : ProtoInv s) (hr : SameReadings s t)
    (hc : s.params.proto ≠ .probe → t.dec.hiclass = .none) : ProtoInv t := by
  obtain ⟨hdirty, htxid, hrain, -, hprobe, hstation, hpower, hch⟩ := h
  obtain ⟨ep, ed, epr, est, epw, et, eb, ev⟩ := hr
  constructor <;> simp only [ep, ed, epr, est, epw, et, eb, ev] <;> assumption

theorem ProtoInv.withDirty {s : State} (h : ProtoInv s) {d : BitVec 8}
    (hd : d &&& ~~~(dirtyFields s.params.proto) = 0) : ProtoInv { s with dirty := d } :=
  ⟨hd, h.txidZero, h.rainZero, h.hiclassNone, h.probeZero, h.stationZero, h.powerZero, h.chcodeDefined⟩

/-- A DIRTY bit that PROTO has a field for may be set (R37). -/
theorem ProtoInv.setDirty {s : State} (h : ProtoInv s) {p : Proto} (i : Nat) (hp : s.params.proto = p)
    (hi : BitVec.twoPow 8 i &&& ~~~(dirtyFields p) = 0) : ProtoInv (setDirty i s) := by
  apply h.withDirty
  have hd := h.dirtyReserved
  rw [hp] at hd ⊢
  rw [BitVec.and_comm, BitVec.and_or_distrib_left, BitVec.and_comm, hd, BitVec.and_comm, hi]
  rfl

theorem ProtoInv.withProbe {s : State} (h : ProtoInv s) (hp : s.params.proto = .probe) {o : ProbeOut} (ho : o.chcode ≠ 1) :
    ProtoInv { s with probe := o } :=
  ⟨h.dirtyReserved, h.txidZero, h.rainZero, h.hiclassNone, fun hn => absurd hp hn, h.stationZero, h.powerZero, ho⟩

theorem ProtoInv.withStation {s : State} (h : ProtoInv s) (hp : s.params.proto = .station) (o : StationOut) :
    ProtoInv { s with station := o } :=
  ⟨h.dirtyReserved, h.txidZero, h.rainZero, h.hiclassNone, h.probeZero, fun hn => absurd hp hn, h.powerZero,
    h.chcodeDefined⟩

theorem ProtoInv.withPower {s : State} (h : ProtoInv s) (hp : s.params.proto = .power) (o : PowerOut) :
    ProtoInv { s with power := o } :=
  ⟨h.dirtyReserved, h.txidZero, h.rainZero, h.hiclassNone, h.probeZero, h.stationZero, fun hn => absurd hp hn,
    h.chcodeDefined⟩

theorem ProtoInv.writeTxid {s : State} (h : ProtoInv s) (v : BitVec 16) : ProtoInv (writeTxid v s) := by
  unfold Machine.writeTxid
  split
  case isTrue hp =>
    exact ⟨h.dirtyReserved, fun hn => absurd hp hn, h.rainZero, h.hiclassNone, h.probeZero, h.stationZero, h.powerZero,
      h.chcodeDefined⟩
  case isFalse => exact h

theorem ProtoInv.writeRain {s : State} (h : ProtoInv s) (base : BitVec 14) (valid : Bool) :
    ProtoInv (writeRain base valid s) := by
  unfold Machine.writeRain
  split
  case isTrue hp =>
    exact ⟨h.dirtyReserved, h.txidZero, fun hn => absurd hp hn, h.hiclassNone, h.probeZero, h.stationZero, h.powerZero,
      h.chcodeDefined⟩
  case isFalse => exact h

/-! ## The parsers keep ProtoInv -/

theorem ProtoInv.parseProbe {s : State} (h : ProtoInv s) (hp : s.params.proto = .probe) : ProtoInv (parseProbe s).1 := by
  have htraw (v) : ProtoInv (Machine.setDirty 0 { s with probe := { s.probe with traw := v } }) :=
    (h.withProbe hp (o := ⟨s.probe.chcode, v⟩) h.chcodeDefined).setDirty 0 hp (by decide)
  unfold Machine.parseProbe
  dsimp only
  split
  · exact h
  · split
    · exact htraw _
    · rename_i hch
      exact ((htraw _).withProbe hp hch).setDirty 1 hp (by decide)

theorem ProtoInv.rainStep {s : State} (h : ProtoInv s) (hp : s.params.proto = .station) (c : BitVec 14) :
    ProtoInv (rainStep c s) := by
  unfold Machine.rainStep
  dsimp only
  split
  · exact ((h.withStation hp { s.station with rain := c - readRainBase s }).setDirty 2 hp (by decide)).writeRain _ _
  · exact h.writeRain _ _

theorem ProtoInv.parseStation {s : State} (h : ProtoInv s) (hp : s.params.proto = .station) :
    ProtoInv (parseStation s).1 := by
  have hwind (w) : ProtoInv (Machine.setDirty 0 { s with station := { s.station with wraw := w } }) :=
    (h.withStation hp _).setDirty 0 hp (by decide)
  unfold Machine.parseStation
  dsimp only
  split
  · exact h
  · split
    · exact ((((hwind _).withStation hp _).withStation hp _).setDirty 1 hp (by decide)).rainStep hp _
    · split
      · exact (((((hwind _).withStation hp _).withStation hp _).setDirty 3 hp (by decide)).setDirty 4 hp
          (by decide)).setDirty 5 hp (by decide)
      · exact (hwind _).withStation hp _

theorem ProtoInv.extractPower {s : State} (h : ProtoInv s) (hp : s.params.proto = .power) (corr : BitVec 16) :
    ProtoInv (extractPower corr s).1 := by
  have htemp (o) : ProtoInv (Machine.setDirty 2 (Machine.setDirty 1 { s with power := o })) :=
    ((h.withPower hp o).setDirty 1 hp (by decide)).setDirty 2 hp (by decide)
  unfold Machine.extractPower
  dsimp only
  split
  · split
    · exact h
    · exact (h.withPower hp _).setDirty 0 hp (by decide)
  · exact htemp _
  · exact (h.withPower hp _).setDirty 3 hp (by decide)
  · exact h

theorem ProtoInv.parsePower {s : State} (h : ProtoInv s) (hp : s.params.proto = .power) : ProtoInv (parsePower s).1 := by
  unfold Machine.parsePower
  dsimp only
  split
  · exact (h.writeTxid _).setDirty 4 (by simpa using hp) (by decide)
  · split
    · exact h
    · exact h.extractPower hp _

theorem ProtoInv.parseFrame {s : State} (h : ProtoInv s) : ProtoInv (parseFrame s).1 := by
  unfold Machine.parseFrame
  split
  · exact h.parseProbe ‹_›
  · exact h.parseStation ‹_›
  · exact h.parsePower ‹_›

/-! ## One pulse keeps ProtoInv -/

/-- Only PROBE latches a class, so elsewhere HICLASS stays NONE (R36). -/
theorem hiclass_none_pulse {s : State} {f : Fed} (hc : PulseCase s f) (hp : s.params.proto ≠ .probe)
    (h : s.dec.hiclass = .none) : f.state.dec.hiclass = .none := by
  cases hc with
  | enterProbe _ _ hp' | latch _ _ hp' => exact absurd hp' hp
  | enterStation b _ _ hf => rw [pushBit_room b hf]; exact h
  | skip => simpa using h
  | push b _ _ hf => simp [framedBit_dec b hf, hp, h]
  | complete b _ _ hf => simp [(completeFrame_core _).1.dec, framedBit_dec b hf, hp, h]
  | begin | reject | overflowStation | overflow => rfl
  | count | enterPower => exact h

theorem ProtoInv.framedBit {s : State} (h : ProtoInv s) (b : Bool) (hf : s.acc.pos ≠ s.params.cap) :
    ProtoInv (framedBit b s) :=
  h.of_sameReadings (framedBit_sameReadings b s) fun hp => by simp [framedBit_dec b hf, hp, h.hiclassNone hp]

theorem ProtoInv.completeFrame {s : State} (h : ProtoInv s) : ProtoInv (completeFrame s).state :=
  (h.of_sameReadings (latchFrame_reverseAtComplete_sameReadings s)
    fun hp => by simpa using h.hiclassNone hp).parseFrame

theorem protoInv_pulse {s : State} {f : Fed} (hi : ProtoInv s) (hc : PulseCase s f) : ProtoInv f.state := by
  rcases sameReadings_pulse hc with hr | ⟨b, hf, rfl⟩
  · exact hi.of_sameReadings hr fun hp => hiclass_none_pulse hc hp (hi.hiclassNone hp)
  · exact (hi.framedBit b hf).completeFrame

/-! ## FrameInv, one introduction rule per kind of state -/

/-- FrameInv speaks of the parameters, the decoder and the frame latch alone. -/
theorem FrameInv.congr {s t : State} (h : FrameInv s) (hp : t.params = s.params) (hd : t.dec = s.dec) (hv : t.fv = s.fv)
    (hl : t.flen = s.flen) : FrameInv t := by
  obtain ⟨hpre, hframe, hdone, hlen, hidle, hclear⟩ := h
  constructor <;> simp only [hp, hd, hv, hl] <;> assumption

theorem frameInv_of_reset {t : State} (hd : t.dec = ⟨.idle, 0, 0, .none⟩) (hl : t.flen ≤ t.params.cap) : FrameInv t := by
  constructor <;> simp [hd, hl]

theorem frameInv_of_preamble {t : State} (hd : t.dec.dstate = .preamble) (hv : t.fv = false)
    (hl : t.flen ≤ t.params.cap) (hph : t.dec.phase = 0 ∧ t.dec.hiclass = .none) : FrameInv t := by
  constructor <;> simp [hd, hv, hl, hph]

theorem frameInv_of_framing {t : State} (hd : t.dec.dstate = .framing) (hv : t.fv = false)
    (hl : t.flen ≤ t.params.cap) : FrameInv t := by
  constructor <;> simp [hd, hv, hl]

theorem frameInv_of_complete {t : State} (hd : t.dec.dstate = .complete) (hv : t.fv = true)
    (hl : t.flen ≤ t.params.cap) : FrameInv t := by
  constructor <;> simp [hd, hv, hl]

/-! ## One pulse keeps AccInv and FrameInv -/

theorem AccInv.framedBit {s : State} (h : AccInv s) (b : Bool) (hf : s.acc.pos ≠ s.params.cap) :
    AccInv (framedBit b s) :=
  (h.pushBit b).congr (by simp) (framedBit_acc b hf)

theorem AccInv.reverseAtComplete {s : State} (h : AccInv s) : AccInv (reverseAtComplete s) := by
  unfold Machine.reverseAtComplete
  split
  · exact h.reverseBitOrder
  · exact h

theorem AccInv.completeFrame {s : State} (h : AccInv s) : AccInv (completeFrame s).state :=
  h.reverseAtComplete.congr (completeFrame_core s).1.params (completeFrame_core s).1.acc

theorem accInv_pulse {s : State} {f : Fed} (hi : AccInv s) (hc : PulseCase s f) : AccInv f.state := by
  cases hc with
  | begin | reject | overflowStation => exact hi.softReset.congr rfl rfl
  | overflow =>
    apply AccInv.softReset
    split
    · exact hi.congr (countPhase_params s) (countPhase_acc s)
    · exact hi
  | count | enterProbe | enterPower => exact hi.congr rfl rfl
  | latch | skip => exact hi.congr (by simp) (by simp)
  | enterStation b => exact (hi.pushBit b).congr rfl rfl
  | push b _ _ hf => exact hi.framedBit b hf
  | complete b _ _ hf => exact (hi.framedBit b hf).completeFrame

theorem frameInv_pulse {s : State} {f : Fed} (ha : AccInv s) (hi : FrameInv s) (hc : PulseCase s f) :
    FrameInv f.state := by
  have hl := hi.flenLe
  cases hc with
  | begin => exact frameInv_of_preamble rfl rfl hl ⟨rfl, rfl⟩
  | reject | overflowStation => exact frameInv_of_reset rfl hl
  | overflow => exact frameInv_of_reset rfl (by split <;> simpa using hl)
  | count h => exact frameInv_of_preamble h (hi.preambleFv h) hl (hi.preambleClear h)
  | enterProbe _ h | enterPower h => exact frameInv_of_framing rfl (hi.preambleFv h) hl
  | enterStation b h => exact frameInv_of_framing rfl (by simpa using hi.preambleFv h) (by simpa using hl)
  | latch _ h | skip h =>
    exact frameInv_of_framing (by simpa using h) (by simpa using hi.framingFv h) (by simpa using hl)
  | push b h _ hf =>
    obtain ⟨hfv, hfl, -⟩ := framedBit_rest b s
    exact frameInv_of_framing (by simpa [framedBit_dec b hf] using h) (hfv.trans (hi.framingFv h)) (by simpa [hfl] using hl)
  | complete b _ _ hf =>
    have hcore := (completeFrame_core (framedBit b s)).1
    exact frameInv_of_complete (completeFrame_dstate _) hcore.fv
      (by simpa [hcore.flen, hcore.params] using (ha.framedBit b hf).posLe)

/-! ## StateInv, one rule per operation of a command -/

theorem StateInv.congr {s t : State} (h : StateInv s) (hr : SameReadings s t) (hd : t.dec = s.dec) (ha : t.acc = s.acc)
    (hv : t.fv = s.fv) (hl : t.flen = s.flen) : StateInv t :=
  ⟨h.acc.congr hr.params ha, h.proto.of_sameReadings hr fun hp => by rw [hd]; exact h.proto.hiclassNone hp,
    h.frame.congr hr.params hd hv hl⟩

theorem StateInv.respond {s : State} (h : StateInv s) (r : Response) : StateInv (respond r s) :=
  h.congr ⟨rfl, rfl, rfl, rfl, rfl, rfl, rfl, rfl⟩ rfl rfl rfl rfl

theorem StateInv.withCommands {s : State} (h : StateInv s) (ws : List CommandWord) : StateInv { s with commands := ws } :=
  h.congr ⟨rfl, rfl, rfl, rfl, rfl, rfl, rfl, rfl⟩ rfl rfl rfl rfl

theorem StateInv.illegalCommand {s : State} (h : StateInv s) : StateInv (illegalCommand s) :=
  h.congr ⟨rfl, rfl, rfl, rfl, rfl, rfl, rfl, rfl⟩ rfl rfl rfl rfl

theorem StateInv.withDirty {s : State} (h : StateInv s) {d : BitVec 8} (hd : d &&& ~~~(dirtyFields s.params.proto) = 0) :
    StateInv { s with dirty := d } :=
  ⟨h.acc.congr rfl rfl, h.proto.withDirty hd, h.frame.congr rfl rfl rfl rfl⟩

/-- ACK clears bits alone, so the reserved ones stay 0 (R37, R118). -/
theorem StateInv.clearDirty {s : State} (h : StateInv s) (k : BitVec 8) : StateInv (clearDirty k s) := by
  apply h.withDirty
  rw [BitVec.and_assoc, BitVec.and_comm (~~~k), ← BitVec.and_assoc, h.proto.dirtyReserved]
  exact BitVec.zero_and

/-- An operation that works on the accumulator alone, and keeps AccInv, keeps StateInv. -/
theorem StateInv.withAcc {s : State} (h : StateInv s) {a : Accumulator} (ha : AccInv { s with acc := a }) :
    StateInv { s with acc := a } :=
  ⟨ha, h.proto.of_sameReadings ⟨rfl, rfl, rfl, rfl, rfl, rfl, rfl, rfl⟩ h.proto.hiclassNone, h.frame.congr rfl rfl rfl rfl⟩

theorem StateInv.softReset {s : State} (h : StateInv s) : StateInv (softReset s) :=
  ⟨h.acc.softReset, h.proto.of_sameReadings ⟨rfl, rfl, rfl, rfl, rfl, rfl, rfl, rfl⟩ fun _ => rfl,
    frameInv_of_reset rfl h.frame.flenLe⟩

theorem StateInv.pushBit {s : State} (h : StateInv s) (b : Bool) : StateInv (pushBit b s).1 := by
  by_cases hf : s.acc.pos = s.params.cap
  · rw [pushBit_full b hf]
    exact h.softReset
  · have ha := h.acc.pushBit b
    rw [pushBit_room b hf] at ha ⊢
    exact h.withAcc ha

theorem StateInv.pushManchesterBit {s : State} (h : StateInv s) (v : Bool) : StateInv (pushManchesterBit v s).1 := by
  have ht : StateInv { s with acc := { s.acc with toggle := xor s.acc.toggle v } } :=
    h.withAcc ⟨h.acc.bufLen, h.acc.posLe, h.acc.fullNbits, h.acc.totalEq, h.acc.unfilled⟩
  exact ht.pushBit _

theorem StateInv.seedCounters {s : State} (h : StateInv s) (id : BitVec 16) (txw rclr : Bool) :
    StateInv (seedCounters id txw rclr s) := by
  have hTxid : StateInv (if txw then writeTxid id s else s) := by
    split
    · exact ⟨h.acc.congr (by simp) (by simp), h.proto.writeTxid id, h.frame.congr (by simp) (by simp) (by simp) (by simp)⟩
    · exact h
  unfold Machine.seedCounters
  dsimp only
  split
  · exact ⟨hTxid.acc.congr (by simp) (by simp), hTxid.proto.writeRain 0 false,
      hTxid.frame.congr (by simp) (by simp) (by simp) (by simp)⟩
  · exact hTxid

/-! ## One command keeps StateInv -/

theorem stateInv_pulse {s : State} {f : Fed} (h : StateInv s) (hc : PulseCase s f) : StateInv f.state :=
  ⟨accInv_pulse h.acc hc, protoInv_pulse h.proto hc, frameInv_pulse h.acc h.frame hc⟩

theorem stateInv_after {s : State} (i : Instr) (h : StateInv s) : StateInv (after i s) := by
  cases i with
  | feed d =>
    exact (stateInv_pulse h (feedStep_cases d s)).congr ⟨rfl, rfl, rfl, rfl, rfl, rfl, rfl, rfl⟩ rfl rfl rfl rfl
  | reset => exact h.softReset.respond _
  | getframe | readreg | lut => exact h.respond _
  | readout rc =>
    cases rc with
    | false => exact h.respond _
    | true => exact (h.withDirty BitVec.zero_and).respond _
  | ack k => exact (h.clearDirty k).respond _
  | seed id txw rclr => exact (h.seedCounters id txw rclr).respond _
  | accPush b => exact (h.pushBit b).respond _
  | accPushm b => exact (h.pushManchesterBit b).respond _
  | accRevbits => exact (h.withAcc h.acc.reverseBitOrder).respond _
  | accRevnib => exact (h.withAcc h.acc.reverseNibbles).respond _
  | accAlign k => exact (h.withAcc (h.acc.alignTail k)).respond _

/-- Settles O16, by the cases of one step: the empty stream, an illegal word, a command. -/
theorem stepKeepsInvariant : Obligations.StepKeepsInvariant := by
  intro s t h hstep
  obtain ⟨-, rfl⟩ | ⟨w, rest, -, ⟨e, -, rfl⟩ | ⟨i, -, rfl⟩⟩ := step_cases hstep
  · exact h
  · exact (h.withCommands rest).illegalCommand
  · exact stateInv_after i (h.withCommands rest)

end Sys2Proof.Machine
end

section
/-! SUPPORT. What a command leaves: the parameters and ILL (every command), the status and the output registers (every
command but FEED), the accumulator (every command but FEED and ACC_*); and what one pulse does to FV. -/

namespace Sys2Proof.Machine

open Sys2Proof.Spec

/-! ## Commands other than FEED -/

/-- The parameters, the frame latch, LAST_EVT, ILL and the output registers are the same in both states. -/
structure SameStatus (s t : State) : Prop where
  params    : t.params = s.params
  fv        : t.fv = s.fv
  flen      : t.flen = s.flen
  lastEvt   : t.lastEvt = s.lastEvt
  stickyIll : t.stickyIll = s.stickyIll
  probe     : t.probe = s.probe
  station   : t.station = s.station
  power     : t.power = s.power

theorem SameStatus.respond {s t : State} (h : SameStatus s t) (r : Response) : SameStatus s (respond r t) :=
  ⟨h.params, h.fv, h.flen, h.lastEvt, h.stickyIll, h.probe, h.station, h.power⟩

theorem pushBit_sameStatus (b : Bool) (s : State) : SameStatus s (pushBit b s).1 := by
  constructor <;> simp

theorem pushManchesterBit_sameStatus (v : Bool) (s : State) : SameStatus s (pushManchesterBit v s).1 := by
  have h := pushBit_sameStatus (xor s.acc.toggle v) { s with acc := { s.acc with toggle := xor s.acc.toggle v } }
  exact ⟨h.params, h.fv, h.flen, h.lastEvt, h.stickyIll, h.probe, h.station, h.power⟩

theorem seedCounters_sameStatus (id : BitVec 16) (txw rclr : Bool) (s : State) :
    SameStatus s (seedCounters id txw rclr s) := by
  unfold seedCounters
  cases txw <;> cases rclr <;> constructor <;> simp

@[simp] theorem seedCounters_acc (id : BitVec 16) (txw rclr : Bool) (s : State) :
    (seedCounters id txw rclr s).acc = s.acc := by
  unfold seedCounters
  cases txw <;> cases rclr <;> simp

@[simp] theorem seedCounters_dirty (id : BitVec 16) (txw rclr : Bool) (s : State) :
    (seedCounters id txw rclr s).dirty = s.dirty := by
  unfold seedCounters
  cases txw <;> cases rclr <;> simp

theorem after_sameStatus_of_not_feed {i : Instr} (hi : ¬ IsFeed i) (s : State) : SameStatus s (after i s) := by
  cases i with
  | feed d => exact absurd ⟨d, rfl⟩ hi
  | readout rc => cases rc <;> exact ⟨rfl, rfl, rfl, rfl, rfl, rfl, rfl, rfl⟩
  | seed id txw rclr => exact (seedCounters_sameStatus id txw rclr s).respond _
  | accPush b => exact (pushBit_sameStatus b s).respond _
  | accPushm b => exact (pushManchesterBit_sameStatus b s).respond _
  | reset | getframe | ack | readreg | lut | accRevbits | accRevnib | accAlign =>
    exact ⟨rfl, rfl, rfl, rfl, rfl, rfl, rfl, rfl⟩

/-- Only RESET works on the accumulator besides FEED and ACC_*, and it leaves BUF (R112). -/
theorem after_acc_of_not_feed_not_acc {i : Instr} (hi : ¬ IsFeed i) (ha : ¬ IsAcc i) (s : State) :
    i = .reset ∨ (after i s).acc = s.acc := by
  cases i with
  | feed d => exact absurd ⟨d, rfl⟩ hi
  | accPush | accPushm | accRevbits | accRevnib | accAlign => simp [IsAcc] at ha
  | reset => exact .inl rfl
  | readout rc => cases rc <;> exact .inr rfl
  | seed id txw rclr => exact .inr (seedCounters_acc id txw rclr s)
  | getframe | ack | readreg | lut => exact .inr rfl

/-- A command other than FEED may clear DIRTY bits (ACK, READOUT 1) and sets none. -/
theorem after_dirty_of_not_feed {i : Instr} (hi : ¬ IsFeed i) (s : State) : (after i s).dirty &&& ~~~s.dirty = 0 := by
  have hself : s.dirty &&& ~~~s.dirty = 0 := BitVec.and_not_self _
  cases i with
  | feed d => exact absurd ⟨d, rfl⟩ hi
  | readout rc =>
    cases rc with
    | false => exact hself
    | true => exact BitVec.zero_and
  | ack k =>
    calc s.dirty &&& ~~~k &&& ~~~s.dirty = s.dirty &&& ~~~s.dirty &&& ~~~k := by
          rw [BitVec.and_assoc, BitVec.and_comm (~~~k), BitVec.and_assoc]
      _ = 0 := by rw [hself]; exact BitVec.zero_and
  | seed id txw rclr => exact (congrArg (· &&& ~~~s.dirty) (seedCounters_dirty id txw rclr s)).trans hself
  | accPush b => exact (congrArg (· &&& ~~~s.dirty) (pushBit_dirty b s)).trans hself
  | accPushm b => exact (congrArg (· &&& ~~~s.dirty) (pushBit_dirty _ _)).trans hself
  | reset | getframe | readreg | lut | accRevbits | accRevnib | accAlign => exact hself

/-! ## One pulse -/

/-- No pulse writes a parameter or ILL. -/
theorem params_stickyIll_pulse {s : State} {f : Fed} (hc : PulseCase s f) :
    f.state.params = s.params ∧ f.state.stickyIll = s.stickyIll := by
  have hframed (b) : (framedBit b s).stickyIll = s.stickyIll := by
    obtain ⟨-, -, -, -, -, -, -, -, -, hill, -⟩ := framedBit_rest b s
    exact hill
  cases hc with
  | begin | reject | count | enterProbe | overflowStation | enterPower => exact ⟨rfl, rfl⟩
  | enterStation | latch | skip => simp
  | overflow => split <;> simp
  | push b => exact ⟨framedBit_params b s, hframed b⟩
  | complete b =>
    have hcore := (completeFrame_core (framedBit b s)).1
    exact ⟨by simp [hcore.params], by simp [hcore.stickyIll, hframed]⟩

/-- FV rises at completion and falls at the start of a frame; no other pulse writes it (R31, R124, R125). -/
theorem fv_pulse {s : State} {f : Fed} (hc : PulseCase s f) :
    f.state.fv = s.fv ∨ (f.state.fv = true ∧ f.state.dec.dstate = .complete) ∨
      (f.state.fv = false ∧ f.state.dec.dstate = .preamble) := by
  cases hc with
  | begin => exact .inr (.inr ⟨rfl, rfl⟩)
  | complete b => exact .inr (.inl ⟨(completeFrame_core _).1.fv, completeFrame_dstate _⟩)
  | push b => exact .inl (framedBit_rest b s).1
  | reject | count | enterProbe | overflowStation | enterPower => exact .inl rfl
  | enterStation | latch | skip => simp
  | overflow => split <;> simp

/-! ## Every command -/

/-- No command writes a parameter or ILL (R22, R23, R34, R43). -/
theorem after_params_stickyIll (i : Instr) (s : State) :
    (after i s).params = s.params ∧ (after i s).stickyIll = s.stickyIll := by
  by_cases hi : IsFeed i
  · obtain ⟨d, rfl⟩ := hi
    exact params_stickyIll_pulse (feedStep_cases d s)
  · have h := after_sameStatus_of_not_feed hi s
    exact ⟨h.params, h.stickyIll⟩

/-- Settles O10: neither an illegal word nor a command writes a parameter. -/
theorem parametersAreHardwired : Obligations.ParametersAreHardwired := by
  intro s t hstep
  obtain ⟨-, rfl⟩ | ⟨w, rest, -, ⟨e, -, rfl⟩ | ⟨i, -, rfl⟩⟩ := step_cases hstep
  · rfl
  · rfl
  · exact (after_params_stickyIll i _).1

/-- ILL after a step that takes a word: set already, or set by the word (R34, R98). -/
theorem stickyIll_step_iff {s t : State} {w : CommandWord} {rest : List CommandWord} (hs : s.commands = w :: rest)
    (hstep : step s = .next t) : t.stickyIll = true ↔ s.stickyIll = true ∨ ¬ Legal w := by
  obtain ⟨hnil, -⟩ | ⟨w', rest', hs', hcase⟩ := step_cases hstep
  · simp [hs] at hnil
  · obtain ⟨rfl, rfl⟩ : w = w' ∧ rest = rest' := by simpa [hs] using hs'
    obtain ⟨e, hw, rfl⟩ | ⟨i, hw, rfl⟩ := hcase
    · simp [Legal, hw]
    · simp [Legal, hw, (after_params_stickyIll i _).2]

theorem readReg_sticky (s : State) : readReg s 0x09 = if s.stickyIll then 0x01 else 0x00 := by
  change sticky s = _
  cases h : s.stickyIll <;> simp [sticky, h]

/-- Settles O11: an illegal word sets ILL, and no command writes it. -/
theorem stickyIllRule : Obligations.StickyIllRule := by
  refine ⟨?_, fun s t w rest => stickyIll_step_iff, fun _ => rfl, fun _ => rfl, readReg_sticky⟩
  intro s t hstep hill
  obtain ⟨-, rfl⟩ | ⟨w, rest, hs, -⟩ := step_cases hstep
  · exact hill
  · exact (stickyIll_step_iff hs hstep).mpr (.inl hill)

/-- What one command can do to FV (R31). -/
theorem after_fv_cases (i : Instr) (s : State) :
    (after i s).fv = s.fv ∨ (IsFeed i ∧ (after i s).fv = true ∧ (after i s).dec.dstate = .complete) ∨
      (IsFeed i ∧ (after i s).fv = false ∧ (after i s).dec.dstate = .preamble) := by
  by_cases hi : IsFeed i
  · obtain ⟨d, rfl⟩ := hi
    obtain hv | hv | hv := fv_pulse (feedStep_cases d s)
    · exact .inl hv
    · exact .inr (.inl ⟨⟨d, rfl⟩, hv⟩)
    · exact .inr (.inr ⟨⟨d, rfl⟩, hv⟩)
  · exact .inl (after_sameStatus_of_not_feed hi s).fv

/-- Settles O42: FV by the cases of one pulse, the rest by what a command other than FEED leaves. -/
theorem whoWritesTheStatus : Obligations.WhoWritesTheStatus := by
  intro s t i hexec
  rw [exec_eq_next_after, Host.Outcome.next.injEq] at hexec
  subst hexec
  refine ⟨fun h0 h1 => ?_, fun h1 h0 => ?_, fun hi => ?_, fun hi ha => ?_, fun hi => ?_⟩
  · obtain hv | ⟨hi, -, hd⟩ | ⟨-, hv, -⟩ := after_fv_cases i s
    · simp [hv, h0] at h1
    · exact ⟨hi, hd⟩
    · simp [hv] at h1
  · obtain hv | ⟨-, hv, -⟩ | ⟨hi, -, hd⟩ := after_fv_cases i s
    · simp [hv, h1] at h0
    · simp [hv] at h0
    · exact ⟨hi, hd⟩
  · have h := after_sameStatus_of_not_feed hi s
    exact ⟨h.fv, h.flen, h.lastEvt, after_dirty_of_not_feed hi s⟩
  · obtain rfl | h := after_acc_of_not_feed_not_acc hi ha s
    · rfl
    · rw [h]
  · have h := after_sameStatus_of_not_feed hi s
    exact ⟨h.probe, h.station, h.power⟩

/-- Settles O6: the step takes the word, decodes it and runs the command, by its definition. -/
theorem stepRunsDecodedCommand : Obligations.StepRunsDecodedCommand := by
  intro s w rest i hs hw
  simp [step, nextCommand, hs, hw]

end Sys2Proof.Machine
end

section
/-! SUPPORT. QuietInv (R311): in a frame the accumulator holds the bits its counted phases carry, fewer than 64, so no push finds
it full. -/

namespace Sys2Proof.Machine

open Sys2Proof.Spec

theorem stBits_of_isReference {p : Params} (h : p.isReference = true) : p.stBits = 64 :=
  congrArg Params.stBits (reference_of_isReference h)

/-! ## The bits a frame carries -/

/-- The number of bits that the counted phases of a frame carry (R174, R204, R234). -/
def carriedBits (s : State) : Nat :=
  match s.params.proto with
  | .probe => s.dec.phase.toNat / 2
  | .station => (s.dec.phase.toNat + 1) / 2
  | .power => s.dec.phase.toNat / 2

/-- A phase that carries no bit leaves their number. -/
theorem carriedBits_of_skip {s t : State} (hp : t.params = s.params) (ht : t.dec.phase = (countPhase s).dec.phase)
    (hlt : s.dec.phase.toNat < 255) (hb : ¬ BitPhase s) : carriedBits t = carriedBits s := by
  have hn := countPhase_toNat hlt
  unfold BitPhase at hb
  unfold carriedBits
  rw [hp, ht, hn]
  rw [hn] at hb
  cases hproto : s.params.proto <;> simp only [hproto] at hb ⊢ <;> omega

/-- A phase that carries a bit adds one. -/
theorem carriedBits_of_bit {s t : State} (hp : t.params = s.params) (ht : t.dec.phase = (countPhase s).dec.phase)
    (hlt : s.dec.phase.toNat < 255) (hb : BitPhase s) : carriedBits t = carriedBits s + 1 := by
  have hn := countPhase_toNat hlt
  unfold BitPhase at hb
  unfold carriedBits
  rw [hp, ht, hn]
  rw [hn] at hb
  cases hproto : s.params.proto <;> simp only [hproto] at hb ⊢ <;> omega

/-! ## QuietInv, one introduction rule per kind of state -/

theorem quietInv_of_outside_frame {t : State} (hd : t.dec.dstate = .idle ∨ t.dec.dstate = .complete)
    (hl : t.fv = true → t.flen = frameBytes t.params.proto) : QuietInv t := by
  rcases hd with hd | hd <;> exact ⟨by simp [hd], by simp [hd], by simp [hd], by simp [hd], hl⟩

theorem quietInv_of_preamble {t : State} (hd : t.dec.dstate = .preamble) (ht : t.acc.total = 0) (hv : t.fv = false) :
    QuietInv t := by
  constructor <;> simp [hd, ht, hv]

theorem quietInv_of_framing {t : State} (hd : t.dec.dstate = .framing) (ht : t.acc.total.toNat = carriedBits t)
    (hs : t.params.proto = .station → t.acc.total < t.params.stBits) (hv : t.fv = false) : QuietInv t := by
  unfold carriedBits at ht
  constructor
  · simp [hd]
  · intro hp _; simpa only [hp] using ht
  · intro hp _; exact ⟨by simpa only [hp] using ht, hs hp⟩
  · intro hp _; simpa only [hp] using ht
  · simp [hv]

/-- QuietInv speaks of PROTO, the decoder, TOTAL and the frame latch alone. -/
theorem QuietInv.congr {s t : State} (h : QuietInv s) (hp : t.params = s.params) (hd : t.dec = s.dec)
    (ha : t.acc = s.acc) (hv : t.fv = s.fv) (hl : t.flen = s.flen) : QuietInv t := by
  obtain ⟨hpre, hprobe, hstation, hpower, hlen⟩ := h
  constructor <;> simp only [hp, hd, ha, hv, hl] <;> assumption

/-! ## What QuietInv says of a frame -/

theorem QuietInv.total_eq {s : State} (h : QuietInv s) (hd : s.dec.dstate = .framing) :
    s.acc.total.toNat = carriedBits s := by
  unfold carriedBits
  split
  · exact h.probeBits ‹_› hd
  · exact (h.stationBits ‹_› hd).1
  · exact h.powerBits ‹_› hd

/-- What O15 assumes of a state: the reference values of R5, a CAP it allows, and the three invariants. -/
structure QuietState (s : State) : Prop where
  reference : s.params.isReference = true
  capOk     : s.params.capOk = true
  state     : StateInv s
  phase     : PhaseInv s
  quiet     : QuietInv s

/-- Fewer than 64 bits are held until the frame completes: at most 55 (PROBE), 63 (STATION) and 31 (POWER). -/
theorem QuietState.total_lt {s : State} (h : QuietState s) (hd : s.dec.dstate = .framing) : s.acc.total.toNat < 64 := by
  cases hp : s.params.proto with
  | probe =>
    have hbits := h.quiet.probeBits hp hd
    have hbound := h.phase.probe_bounds hp hd
    omega
  | station =>
    have hlt := (h.quiet.stationBits hp hd).2
    rw [stBits_of_isReference h.reference] at hlt
    bv_omega
  | power =>
    have hbits := h.quiet.powerBits hp hd
    have hbound := h.phase.power_bound hp hd
    omega

theorem QuietState.phase_lt {s : State} (h : QuietState s) (hd : s.dec.dstate = .framing) : s.dec.phase.toNat < 255 := by
  have hlt := h.total_lt hd
  have heq := h.quiet.total_eq hd
  unfold carriedBits at heq
  split at heq <;> omega

/-- CAP is at least 8 bytes (R5), so fewer than 64 bits do not fill the buffer. -/
theorem AccInv.room_of_total_lt {s : State} (h : AccInv s) (hcap : s.params.capOk = true) (hlt : s.acc.total.toNat < 64) :
    s.acc.pos ≠ s.params.cap := by
  have htotal := h.totalEq
  simp only [Params.capOk, Bool.and_eq_true, decide_eq_true_eq] at hcap
  obtain ⟨hge, -⟩ := hcap
  bv_omega

theorem framedBit_total {s : State} (b : Bool) (hf : s.acc.pos ≠ s.params.cap) (hlt : s.acc.total.toNat < 64) :
    (framedBit b s).acc.total.toNat = s.acc.total.toNat + 1 := by
  rw [framedBit_acc b hf, pushBit_room b hf]
  bv_omega

/-- A frame that is done and holds the bits its phases carry has the length of its protocol (R32). -/
theorem pos_of_frameDone {s : State} (href : s.params.isReference = true) (ha : AccInv s) (hd : FrameDone s)
    (ht : s.acc.total.toNat = carriedBits s) : s.acc.pos = frameBytes s.params.proto := by
  have htotal := ha.totalEq
  have hnbits := s.acc.nbits.isLt
  unfold FrameDone at hd
  unfold carriedBits at ht
  apply BitVec.eq_of_toNat_eq
  cases hp : s.params.proto with
  | probe =>
    simp only [hp, prPhases_of_isReference href] at hd ht
    simp only [hd] at ht
    simp [frameBytes] at ht ⊢
    omega
  | station =>
    simp only [hp, stBits_of_isReference href] at hd ht
    simp [frameBytes, hd] at htotal ⊢
    omega
  | power =>
    simp only [hp, pmPulses_of_isReference href] at hd ht
    simp only [hd] at ht
    simp [frameBytes] at ht ⊢
    omega

/-! ## One pulse keeps QuietInv and does not overflow -/

theorem QuietState.room {s : State} (h : QuietState s) (hd : s.dec.dstate = .preamble ∨ s.dec.dstate = .framing) :
    s.acc.pos ≠ s.params.cap := by
  apply h.state.acc.room_of_total_lt h.capOk
  rcases hd with hd | hd
  · simp [h.quiet.preambleEmpty hd]
  · exact h.total_lt hd

theorem QuietState.no_overflow_pulse {s : State} {f : Fed} (h : QuietState s) (hc : PulseCase s f) :
    ¬ (f.ready = false ∧ f.evt = .overflow) := by
  cases hc with
  | overflowStation hd _ hf => exact absurd hf (h.room (.inl hd))
  | overflow hd _ hf => exact absurd hf (h.room (.inr hd))
  | complete => simp [(completeFrame_core _).2]
  | reject e he => rcases he with rfl | rfl | ⟨rfl, -⟩ <;> simp [reject]
  | begin | count | enterProbe | enterStation | enterPower | latch | skip | push => simp [beginFrame]

/-- After a push in a frame the bits held are those the phases carry, the new one included. -/
theorem QuietState.framedBit_total_eq {s : State} (h : QuietState s) (b : Bool) (hd : s.dec.dstate = .framing)
    (hb : BitPhase s) : (framedBit b s).acc.total.toNat = carriedBits (framedBit b s) := by
  have hroom := h.room (.inr hd)
  have hphase : (framedBit b s).dec.phase = (countPhase s).dec.phase := by rw [framedBit_dec b hroom]
  rw [framedBit_total b hroom (h.total_lt hd), h.quiet.total_eq hd,
    carriedBits_of_bit (framedBit_params b s) hphase (h.phase_lt hd) hb]

theorem QuietState.push {s : State} (h : QuietState s) (b : Bool) (hd : s.dec.dstate = .framing) (hb : BitPhase s)
    (hdone : ¬ FrameDone (framedBit b s)) : QuietInv (framedBit b s) := by
  have hroom := h.room (.inr hd)
  refine quietInv_of_framing (by simpa [framedBit_dec b hroom] using hd) (h.framedBit_total_eq b hd hb) (fun hp => ?_)
    ((framedBit_rest b s).1.trans (h.state.frame.framingFv hd))
  have hlt := h.total_lt hd
  have htotal := framedBit_total b hroom hlt
  rw [framedBit_params] at hp ⊢
  simp only [frameDone_iff, hp, stBits_of_isReference h.reference] at hdone
  rw [stBits_of_isReference h.reference]
  bv_omega

theorem QuietState.complete {s : State} (h : QuietState s) (b : Bool) (hd : s.dec.dstate = .framing) (hb : BitPhase s)
    (hdone : FrameDone (framedBit b s)) : QuietInv (completeFrame (framedBit b s)).state := by
  have hcore := (completeFrame_core (framedBit b s)).1
  have hpos := pos_of_frameDone (by simpa using h.reference) (h.state.acc.framedBit b (h.room (.inr hd))) hdone
    (h.framedBit_total_eq b hd hb)
  exact quietInv_of_outside_frame (.inr (completeFrame_dstate _))
    fun _ => by simpa [hcore.flen, hcore.params] using hpos

/-- A pulse of a frame that carries no bit counts its phase and leaves TOTAL. -/
theorem QuietState.skip {s t : State} (h : QuietState s) (hd : s.dec.dstate = .framing) (hb : ¬ BitPhase s)
    (hp : t.params = s.params) (hdt : t.dec.dstate = s.dec.dstate) (hph : t.dec.phase = (countPhase s).dec.phase)
    (ha : t.acc = s.acc) (hv : t.fv = s.fv) : QuietInv t := by
  refine quietInv_of_framing (hdt.trans hd) ?_ (fun hst => ?_) (hv.trans (h.state.frame.framingFv hd))
  · rw [ha, h.quiet.total_eq hd, carriedBits_of_skip hp hph (h.phase_lt hd) hb]
  · rw [hp] at hst ⊢
    rw [ha]
    exact (h.quiet.stationBits hst hd).2

theorem QuietState.pulse {s : State} {f : Fed} (h : QuietState s) (hc : PulseCase s f) : QuietInv f.state := by
  have hpre := h.state.frame.preambleFv
  have hempty := h.quiet.preambleEmpty
  cases hc with
  | begin => exact quietInv_of_preamble rfl rfl rfl
  | reject => exact quietInv_of_outside_frame (.inl rfl) h.quiet.frameLength
  | count hd => exact quietInv_of_preamble hd (hempty hd) (hpre hd)
  | enterProbe _ hd hp | enterPower hd hp =>
    exact quietInv_of_framing rfl (by simp [carriedBits, hp, hempty hd]) (by simp [hp]) (hpre hd)
  | enterStation b hd hp hf =>
    rw [pushBit_room b hf]
    exact quietInv_of_framing rfl (by simp [carriedBits, hp, hempty hd])
      (by simp [hempty hd, stBits_of_isReference h.reference]) (hpre hd)
  | overflowStation hd _ hf => exact absurd hf (h.room (.inl hd))
  | overflow hd _ hf => exact absurd hf (h.room (.inr hd))
  | latch _ hd _ hb | skip hd _ hb => exact h.skip hd hb (by simp) (by simp) (by simp) (by simp) (by simp)
  | push b hd hb _ hdone => exact h.push b hd hb hdone
  | complete b hd hb _ hdone => exact h.complete b hd hb hdone

/-! ## One command keeps QuietInv and does not overflow -/

/-- R311: ACC_* commands come in Idle. -/
theorem idle_of_accQuiet {i : Instr} {s : State} (ha : IsAcc i) (hq : accQuiet i s = true) : s.dec.dstate = .idle := by
  obtain ⟨b, rfl⟩ | ⟨b, rfl⟩ | rfl | rfl | ⟨k, rfl⟩ := ha <;> simp [accQuiet] at hq <;> exact hq.1

theorem quietInv_after_of_not_feed {i : Instr} {s : State} (hi : ¬ IsFeed i) (h : QuietInv s) (hq : accQuiet i s = true) :
    QuietInv (after i s) := by
  have hs := after_sameStatus_of_not_feed hi s
  have hidle (hd : (after i s).dec.dstate = .idle) : QuietInv (after i s) :=
    quietInv_of_outside_frame (.inl hd) (by rw [hs.fv, hs.flen, hs.params]; exact h.frameLength)
  obtain ⟨-, hd | hd⟩ := after_params_dec_of_not_feed hi s
  · by_cases ha : IsAcc i
    · exact hidle (by rw [hd, idle_of_accQuiet ha hq])
    · obtain rfl | hacc := after_acc_of_not_feed_not_acc hi ha s
      · exact hidle rfl
      · exact h.congr hs.params hd hacc hs.fv hs.flen
  · exact hidle (by rw [hd])

/-- Only FEED answers a FEED record (R96). -/
theorem after_response_of_not_feed {i : Instr} (hi : ¬ IsFeed i) (s : State) (ready : Bool) (evt : Event) :
    (after i s).response ≠ some (.feed ready evt) := by
  cases i with
  | feed d => exact absurd ⟨d, rfl⟩ hi
  | reset | getframe | readout | ack | seed | readreg | lut | accPush | accPushm | accRevbits | accRevnib | accAlign =>
    exact fun h => Response.noConfusion (Option.some.inj h)

/-- Settles O15: FEED by the cases of one pulse, in which the accumulator has room; a command other than FEED leaves the frame
as it is, is issued in Idle, or resets. -/
theorem quietHostNeverOverflows : Obligations.QuietHostNeverOverflows := by
  intro s t i href hcap hi hph hq hacc hexec
  rw [exec_eq_next_after, Host.Outcome.next.injEq] at hexec
  subst hexec
  by_cases hfeed : IsFeed i
  · obtain ⟨d, rfl⟩ := hfeed
    have h : QuietState s := ⟨href, hcap, hi, hph, hq⟩
    have hc := feedStep_cases d s
    refine ⟨(h.pulse hc).congr rfl rfl rfl rfl rfl, fun hr => h.no_overflow_pulse hc ?_⟩
    have hresp : some (Response.feed (feedStep d s).ready (feedStep d s).evt) = some (.feed false .overflow) := hr
    simpa using hresp
  · exact ⟨quietInv_after_of_not_feed hfeed hq hacc, after_response_of_not_feed hfeed s false .overflow⟩

end Sys2Proof.Machine
end

section
/-! SUPPORT. The register map of R44 as READREG reads it, field by field. -/

namespace Sys2Proof.Machine

/-! ## Packed registers, as numbers -/

theorem getLsbD_of_toNat_div_mod {w i : Nat} {v : BitVec w} {b : Bool} (h : v.toNat / 2 ^ i % 2 = b.toNat) :
    v.getLsbD i = b := by
  rw [BitVec.getLsbD, Nat.testBit_eq_decide_div_mod_eq, h]
  cases b <;> rfl

theorem stat0_toNat (s : State) :
    (stat0 s).toNat = s.dec.dstate.code.toNat + 4 * s.params.proto.code.toNat + 16 * s.fv.toNat + 32 * s.acc.toggle.toNat +
      64 * s.dec.hiclass.code.toNat := by
  rw [stat0, joinBits_toNat _ _ (by decide), joinBits_toNat _ _ (by decide), joinBits_toNat _ _ (by decide),
    joinBits_toNat _ _ (by decide), BitVec.toNat_ofBool, BitVec.toNat_ofBool]
  omega

/-- STAT0 holds its five fields in their places (R44). -/
theorem stat0_fields (s : State) :
    (stat0 s).extractLsb' 0 2 = s.dec.dstate.code ∧ (stat0 s).extractLsb' 2 2 = s.params.proto.code ∧
      (stat0 s).getLsbD 4 = s.fv ∧ (stat0 s).getLsbD 5 = s.acc.toggle ∧
      (stat0 s).extractLsb' 6 2 = s.dec.hiclass.code := by
  have hv := stat0_toNat s
  have hdstate := s.dec.dstate.code.isLt
  have hproto := s.params.proto.code.isLt
  have hfv := s.fv.toNat_lt
  have htoggle := s.acc.toggle.toNat_lt
  have hclass := s.dec.hiclass.code.isLt
  refine ⟨BitVec.eq_of_toNat_eq ?_, BitVec.eq_of_toNat_eq ?_, getLsbD_of_toNat_div_mod ?_, getLsbD_of_toNat_div_mod ?_,
    BitVec.eq_of_toNat_eq ?_⟩
  all_goals simp only [BitVec.extractLsb'_toNat, Nat.shiftRight_eq_div_pow, hv]; omega

theorem rainHi_toNat (s : State) : (rainHi s).toNat = (readRainBase s).toNat / 256 + 128 * (readRainValid s).toNat := by
  have hbase := (readRainBase s).isLt
  rw [rainHi, joinBits_toNat _ _ (by decide), joinBits_toNat _ _ (by decide), BitVec.toNat_ofBool,
    BitVec.extractLsb'_toNat, Nat.shiftRight_eq_div_pow]
  simp only [BitVec.toNat_ofNat]
  omega

theorem sticky_toNat (s : State) : (sticky s).toNat = s.stickyIll.toNat := by
  cases h : s.stickyIll <;> simp [sticky, h]

theorem lowByte_toNat {w : Nat} (v : BitVec w) : (v.extractLsb' 0 8).toNat = v.toNat % 256 := by
  simp

theorem highByte_toNat (v : BitVec 16) : (v.extractLsb' 8 8).toNat = v.toNat / 256 := by
  have hv := v.isLt
  rw [BitVec.extractLsb'_toNat, Nat.shiftRight_eq_div_pow]
  omega

/-! ## Hard-wired registers read the 0 they hold (R41, R42) -/

theorem ProtoInv.readTxid_eq {s : State} (h : ProtoInv s) : readTxid s = s.txid := by
  unfold readTxid
  split
  · rfl
  · exact (h.txidZero ‹_›).symm

theorem ProtoInv.readRainBase_eq {s : State} (h : ProtoInv s) : readRainBase s = s.rainBase := by
  unfold readRainBase
  split
  · rfl
  · exact (h.rainZero ‹_›).1.symm

theorem ProtoInv.readRainValid_eq {s : State} (h : ProtoInv s) : readRainValid s = s.rainValid := by
  unfold readRainValid
  split
  · rfl
  · exact (h.rainZero ‹_›).2.symm

/-! ## The addresses above the named registers -/

/-- From 0x10 up the map holds BUF at 0x20 to 0x20 + CAP - 1 and reserved addresses (R44). -/
theorem readReg_of_ge {k : BitVec 8} (s : State) (hk : 0x10 ≤ k.toNat) :
    readReg s k =
      if 0x20 ≤ k.toNat ∧ k.toNat < 0x20 + s.params.cap.toNat then Memory.read s.acc.buf (k.toNat - 0x20) else 0 := by
  unfold readReg
  split
  case h_17 => rfl
  all_goals omega

/-- Settles O24: the value is ReadReg(K), read off the map address by address. -/
theorem readregReturnsTheMap : Obligations.ReadregReturnsTheMap := by
  intro s k hi
  have htxid := hi.proto.readTxid_eq
  have hbase := hi.proto.readRainBase_eq
  have hvalid := hi.proto.readRainValid_eq
  refine ⟨readReg s k, rfl, ?stat0, ?pos, ?nbits, ?totalLo, ?totalHi, ?pcount, ?phase, ?flen, ?lastEvt, ?sticky, ?dirty,
    ?txidLo, ?txidHi, ?rainLo, ?rainHi, ?cap, fun hlo hhi => ?reserved, fun hlo hhi => ?buf, fun hlo => ?above⟩
  case stat0 => rintro rfl; exact stat0_fields s
  case pos | pcount | phase | flen | dirty | cap => rintro rfl; rfl
  case nbits => rintro rfl; exact BitVec.toNat_setWidth_of_le (by decide)
  case totalLo => rintro rfl; exact lowByte_toNat s.acc.total
  case totalHi => rintro rfl; exact highByte_toNat s.acc.total
  case lastEvt => rintro rfl; exact BitVec.toNat_setWidth_of_le (by decide)
  case sticky => rintro rfl; exact sticky_toNat s
  case txidLo => rintro rfl; rw [← htxid]; exact lowByte_toNat (readTxid s)
  case txidHi => rintro rfl; rw [← htxid]; exact highByte_toNat (readTxid s)
  case rainLo => rintro rfl; rw [← hbase]; exact lowByte_toNat (readRainBase s)
  case rainHi => rintro rfl; rw [← hbase, ← hvalid]; exact rainHi_toNat s
  case reserved => rw [readReg_of_ge s hlo, if_neg (by omega)]
  case buf => rw [readReg_of_ge s (by omega), if_pos ⟨hlo, hhi⟩]
  case above => rw [readReg_of_ge s (by omega), if_neg (by omega)]

end Sys2Proof.Machine
end

section
/-! SUPPORT. One step in a system of instances (R293), and the commands that only read (R77). -/

namespace Sys2Proof.Machine

/-! ## Several instances -/

/-- Everything a step of one instance can do: no instance has the number `k`, or instance `k` is replaced by its own step. -/
theorem stepInstance_cases {k : Nat} {sys sys' : System} (h : stepInstance k sys = .next sys') :
    (sys[k]? = none ∧ sys' = sys) ∨ ∃ s t, sys[k]? = some s ∧ step s = .next t ∧ sys' = sys.set k t := by
  unfold stepInstance at h
  cases hk : sys[k]? with
  | none =>
    simp only [hk, Host.Outcome.next.injEq] at h
    exact .inl ⟨rfl, h.symm⟩
  | some s =>
    cases hs : step s with
    | next t =>
      simp only [hk, hs, Host.Outcome.next.injEq] at h
      exact .inr ⟨s, t, rfl, hs, h.symm⟩
    | fault r | refused r => simp [hk, hs] at h

/-- Settles O59: the system is left as it was, or one place of the list is set to that instance's own step. -/
theorem instancesAreIndependent : Obligations.InstancesAreIndependent := by
  intro sys sys' k j hstep
  obtain ⟨hnone, rfl⟩ | ⟨s, t, hs, ht, rfl⟩ := stepInstance_cases hstep
  · exact ⟨rfl, fun _ => rfl, fun s hs => by simp [hnone] at hs⟩
  · refine ⟨List.length_set, fun hj => List.getElem?_set_ne hj.symm, fun s' hs' => ?_⟩
    obtain rfl : s = s' := Option.some.inj (hs.symm.trans hs')
    obtain ⟨hk, -⟩ := List.getElem?_eq_some_iff.mp hs
    exact ⟨t, ht, List.getElem?_set_self hk⟩

/-! ## The commands that only read -/

/-- The commands that R77 gives no side effect. -/
def IsRead (i : Instr) : Prop :=
  i = .getframe ∨ i = .readout false ∨ (∃ k, i = .readreg k) ∨ ∃ k, i = .lut k

theorem exec_of_isRead {i : Instr} (hi : IsRead i) (s : State) : ∃ r, exec i s = .next (respond r s) := by
  obtain rfl | rfl | ⟨k, rfl⟩ | ⟨k, rfl⟩ := hi
  · exact ⟨frameRecord s, rfl⟩
  · exact ⟨.reading s.params.proto s.dirty (outFields s), rfl⟩
  · exact ⟨.reg (readReg s k), rfl⟩
  · exact ⟨.lut (interpByte s.params.calTable k), rfl⟩

/-- A read does not look at the response of the command before it (R96). -/
theorem exec_respond_of_isRead {i : Instr} (hi : IsRead i) (r : Response) (s : State) :
    exec i (respond r s) = exec i s := by
  obtain rfl | rfl | ⟨k, rfl⟩ | ⟨k, rfl⟩ := hi <;> rfl

/-- Settles O25: a read writes the response alone and does not look at it; READOUT answers the record it finds. -/
theorem readsHaveNoSideEffect : Obligations.ReadsHaveNoSideEffect := by
  refine ⟨fun s i hi => ?_, fun s => ⟨outFields s, rfl, rfl⟩⟩
  obtain ⟨r, hr⟩ := exec_of_isRead hi s
  exact ⟨r, hr, (exec_respond_of_isRead hi r s).trans hr⟩

end Sys2Proof.Machine
end

section
/-! SUPPORT. The command word (R90 to R94): the decoder inverts the encoder, it refuses exactly what the forms reserve, and the
rows of the opcode table say the same. -/

namespace Sys2Proof

open Sys2Proof.Spec

/-! ## Reserved bits -/

theorem extractLsb'_eq_zero_iff {w n m : Nat} (hw : w ≤ n + m) (x : BitVec w) :
    x.extractLsb' n m = 0 ↔ ∀ i, n ≤ i → x.getLsbD i = false := by
  constructor
  · intro h i hi
    have hbit : (x.extractLsb' n m).getLsbD (i - n) = false := by simp [h]
    by_cases hm : i - n < m
    · simpa [hm, show n + (i - n) = i by omega] using hbit
    · exact BitVec.getLsbD_of_ge x i (by omega)
  · intro h
    apply BitVec.eq_of_getLsbD_eq
    intro i _
    simp [h (n + i) (by omega)]

theorem and_highMask_eq_zero_iff {w n m : Nat} {mask : BitVec w} (hmask : mask = BitVec.allOnes w <<< n) (hw : w ≤ n + m)
    (x : BitVec w) : x &&& mask = 0 ↔ x.extractLsb' n m = 0 := by
  rw [hmask, extractLsb'_eq_zero_iff hw]
  constructor
  · intro h i hi
    by_cases hiw : i < w
    · have hbit : (x &&& (BitVec.allOnes w <<< n)).getLsbD i = false := by simp [h]
      simpa [hiw, show i - n < w by omega, show ¬ i < n by omega] using hbit
    · exact BitVec.getLsbD_of_ge x i (by omega)
  · intro h
    apply BitVec.eq_of_getLsbD_eq
    intro i _
    by_cases hi : i < n
    · simp [hi]
    · simp [h i (by omega)]

/-! ## What each operand form accepts (R91) -/

theorem formC0_eq_ok_iff {opc : BitVec 8} {opd : BitVec 32} {i j : Instr} :
    formC0 opc opd j = .ok i ↔ opd = 0 ∧ i = j := by
  rw [formC0]
  constructor
  · intro h
    split at h
    next hres => exact ⟨hres, (Except.ok.inj h).symm⟩
    next => cases h
  · rintro ⟨rfl, rfl⟩
    exact if_pos rfl

theorem formC1_eq_ok_iff {opc : BitVec 8} {opd : BitVec 32} {mk : Bool → Instr} {i : Instr} :
    formC1 opc opd mk = .ok i ↔ ∃ b, opd = opdC1 b ∧ i = mk b := by
  rw [formC1]
  constructor
  · intro h
    split at h
    next hres =>
      rw [extractLsb'_eq_zero_iff (by decide)] at hres
      refine ⟨opd.getLsbD 0, BitVec.eq_of_getLsbD_eq fun k _ => ?_, (Except.ok.inj h).symm⟩
      rw [opdC1_bit]
      split_ifs with hk
      · rw [hk]
      · exact hres k (by omega)
    next => cases h
  · rintro ⟨b, rfl, rfl⟩
    rw [if_pos]
    · rw [opdC1_bit, if_pos rfl]
    · rw [extractLsb'_eq_zero_iff (by decide)]
      intro k hk
      rw [opdC1_bit, if_neg (by omega)]

theorem formC8_eq_ok_iff {opc : BitVec 8} {opd : BitVec 32} {mk : BitVec 8 → Instr} {i : Instr} :
    formC8 opc opd mk = .ok i ↔ ∃ k, opd = opdC8 k ∧ i = mk k := by
  rw [formC8]
  constructor
  · intro h
    split at h
    next hres =>
      rw [extractLsb'_eq_zero_iff (by decide)] at hres
      refine ⟨opd.extractLsb' 0 8, BitVec.eq_of_getLsbD_eq fun k _ => ?_, (Except.ok.inj h).symm⟩
      rw [opdC8_bit]
      by_cases hk : k < 8
      · simp [hk]
      · simp [hk, hres k (by omega)]
    next => cases h
  · rintro ⟨k, rfl, rfl⟩
    have hk : (opdC8 k).extractLsb' 0 8 = k := BitVec.eq_of_getLsbD_eq fun j hj => by simp [hj, opdC8_bit]
    rw [if_pos, hk]
    rw [extractLsb'_eq_zero_iff (by decide)]
    intro j hj
    rw [opdC8_bit, BitVec.getLsbD_of_ge k j hj]

theorem formCS_eq_ok_iff {opc : BitVec 8} {opd : BitVec 32} {mk : BitVec 16 → Bool → Bool → Instr} {i : Instr} :
    formCS opc opd mk = .ok i ↔ ∃ id txw rclr, opd = opdCS id txw rclr ∧ i = mk id txw rclr := by
  rw [formCS]
  constructor
  · intro h
    split at h
    next hres =>
      rw [extractLsb'_eq_zero_iff (by decide)] at hres
      refine ⟨opd.extractLsb' 0 16, opd.getLsbD 16, opd.getLsbD 17, BitVec.eq_of_getLsbD_eq fun k _ => ?_,
        (Except.ok.inj h).symm⟩
      rw [opdCS_bit]
      split_ifs with hid htxw hrclr
      · simp [hid]
      · rw [htxw]
      · rw [hrclr]
      · exact hres k (by omega)
    next => cases h
  · rintro ⟨id, txw, rclr, rfl, rfl⟩
    have hid : (opdCS id txw rclr).extractLsb' 0 16 = id :=
      BitVec.eq_of_getLsbD_eq fun j hj => by simp [hj, opdCS_bit]
    rw [if_pos, hid]
    · simp only [opdCS_bit]
      rfl
    · rw [extractLsb'_eq_zero_iff (by decide)]
      intro j hj
      rw [opdCS_bit, if_neg (by omega), if_neg (by omega), if_neg (by omega)]

/-! ## The decoder inverts the encoder -/

theorem decodeParts_opc_opd (i : Instr) : decodeParts i.opc i.opd = .ok i := by
  cases i with
  | feed d => rfl
  | reset | getframe | accRevbits | accRevnib => exact formC0_eq_ok_iff.mpr ⟨rfl, rfl⟩
  | readout b | accPush b | accPushm b => exact formC1_eq_ok_iff.mpr ⟨b, rfl, rfl⟩
  | ack k | readreg k | lut k | accAlign k => exact formC8_eq_ok_iff.mpr ⟨k, rfl, rfl⟩
  | seed id txw rclr => exact formCS_eq_ok_iff.mpr ⟨id, txw, rclr, rfl, rfl⟩

theorem opc_opd_of_decodeParts {opc : BitVec 8} {opd : BitVec 32} {i : Instr} (h : decodeParts opc opd = .ok i) :
    i.opc = opc ∧ i.opd = opd := by
  unfold decodeParts at h
  split at h
  case h_1 => obtain rfl := Except.ok.inj h; exact ⟨rfl, rfl⟩
  case h_2 | h_3 | h_11 | h_12 => obtain ⟨rfl, rfl⟩ := formC0_eq_ok_iff.mp h; exact ⟨rfl, rfl⟩
  case h_4 | h_9 | h_10 => obtain ⟨b, rfl, rfl⟩ := formC1_eq_ok_iff.mp h; exact ⟨rfl, rfl⟩
  case h_5 | h_7 | h_8 | h_13 => obtain ⟨k, rfl, rfl⟩ := formC8_eq_ok_iff.mp h; exact ⟨rfl, rfl⟩
  case h_6 => obtain ⟨id, txw, rclr, rfl, rfl⟩ := formCS_eq_ok_iff.mp h; exact ⟨rfl, rfl⟩
  case h_14 => cases h

@[simp] theorem decode_encode (i : Instr) : decode (encode i) = .ok i := by
  rw [decode, encode, opcOf_wordOf, opdOf_wordOf, decodeParts_opc_opd]

theorem encode_of_decode {w : CommandWord} {i : Instr} (h : decode w = .ok i) : encode i = w := by
  obtain ⟨hopc, hopd⟩ := opc_opd_of_decodeParts h
  rw [encode, hopc, hopd, wordOf_opcOf_opdOf]

/-- Settles O1: form by form, the decoder finds the operand the encoder wrote. -/
theorem decodeOfEncode : Obligations.DecodeOfEncode :=
  fun i _ => decode_encode i

/-- Settles O2: an accepted word has the OPC and the OPD of its command. -/
theorem encodeOfDecode : Obligations.EncodeOfDecode :=
  fun _ _ => encode_of_decode

/-- Settles O5: the words are those of the encoder, which the decoder inverts. -/
theorem specWordsDecode : Obligations.SpecWordsDecode :=
  ⟨decode_encode (.feed 600), decode_encode .reset, decode_encode .getframe, decode_encode (.readout true),
    decode_encode (.ack 3), decode_encode (.seed 0x1234 true false), decode_encode (.seed 0 false true),
    decode_encode (.readreg 0x20), decode_encode (.lut 15), decode_encode (.accPush true), decode_encode (.accPushm true),
    decode_encode .accRevbits, decode_encode .accRevnib, decode_encode (.accAlign 2)⟩

/-! ## Legal and illegal words, by OPC and reserved bits (R93, R94) -/

/-- The answer `r` of the decoder refuses an operand exactly when one of the bits `reserved` is set in it, and says so. -/
def RefusesReserved (opc : BitVec 8) (opd reserved : BitVec 32) (r : Except Reject Instr) : Prop :=
  (opd &&& reserved = 0 ∧ ∃ i, r = .ok i) ∨ (opd &&& reserved ≠ 0 ∧ r = .error (.reservedBits opc))

theorem refusesReserved_ite {opc : BitVec 8} {opd reserved : BitVec 32} {c : Prop} [Decidable c]
    (hc : opd &&& reserved = 0 ↔ c) (i : Instr) :
    RefusesReserved opc opd reserved (if c then .ok i else .error (.reservedBits opc)) := by
  by_cases h : c
  · exact .inl ⟨hc.mpr h, i, if_pos h⟩
  · exact .inr ⟨mt hc.mp h, if_neg h⟩

theorem formC0_refusesReserved (opc : BitVec 8) (opd : BitVec 32) (i : Instr) :
    RefusesReserved opc opd 0xFFFFFFFF (formC0 opc opd i) :=
  refusesReserved_ite (by rw [show (0xFFFFFFFF : BitVec 32) = BitVec.allOnes 32 from rfl, BitVec.and_allOnes]) i

theorem formCD_refusesReserved (opc : BitVec 8) (opd : BitVec 32) (mk : Duration → Instr) :
    RefusesReserved opc opd 0 (formCD opd mk) :=
  .inl ⟨BitVec.and_zero, mk opd, rfl⟩

theorem formC1_refusesReserved (opc : BitVec 8) (opd : BitVec 32) (mk : Bool → Instr) :
    RefusesReserved opc opd 0xFFFFFFFE (formC1 opc opd mk) :=
  refusesReserved_ite (and_highMask_eq_zero_iff (by decide) (by decide) opd) _

theorem formC8_refusesReserved (opc : BitVec 8) (opd : BitVec 32) (mk : BitVec 8 → Instr) :
    RefusesReserved opc opd 0xFFFFFF00 (formC8 opc opd mk) :=
  refusesReserved_ite (and_highMask_eq_zero_iff (by decide) (by decide) opd) _

theorem formCS_refusesReserved (opc : BitVec 8) (opd : BitVec 32) (mk : BitVec 16 → Bool → Bool → Instr) :
    RefusesReserved opc opd 0xFFFC0000 (formCS opc opd mk) :=
  refusesReserved_ite (and_highMask_eq_zero_iff (by decide) (by decide) opd) _

theorem decodeParts_refusesReserved {f : BitVec 8 × BitVec 32} (hf : f ∈ forms) (opd : BitVec 32) :
    RefusesReserved f.1 opd f.2 (decodeParts f.1 opd) := by
  simp only [forms, List.cons_append, List.nil_append, List.mem_cons, List.not_mem_nil, or_false] at hf
  obtain rfl | rfl | rfl | rfl | rfl | rfl | rfl | rfl | rfl | rfl | rfl | rfl | rfl := hf
  · exact formCD_refusesReserved _ opd .feed
  · exact formC0_refusesReserved _ opd .reset
  · exact formC0_refusesReserved _ opd .getframe
  · exact formC1_refusesReserved _ opd .readout
  · exact formC8_refusesReserved _ opd .ack
  · exact formCS_refusesReserved _ opd .seed
  · exact formC8_refusesReserved _ opd .readreg
  · exact formC8_refusesReserved _ opd .lut
  · exact formC1_refusesReserved _ opd .accPush
  · exact formC1_refusesReserved _ opd .accPushm
  · exact formC0_refusesReserved _ opd .accRevbits
  · exact formC0_refusesReserved _ opd .accRevnib
  · exact formC8_refusesReserved _ opd .accAlign

theorem decodeParts_of_opc_not_mem {opc : BitVec 8} (h : opc ∉ forms.map Prod.fst) (opd : BitVec 32) :
    decodeParts opc opd = .error (.unknownOpcode opc) := by
  unfold decodeParts
  split
  case h_14 => rfl
  all_goals exact absurd (by decide) h

theorem legal_iff_form (w : CommandWord) : Legal w ↔ ∃ f ∈ forms, opcOf w = f.1 ∧ opdOf w &&& f.2 = 0 := by
  constructor
  · rintro ⟨i, hi⟩
    have hmem : opcOf w ∈ forms.map Prod.fst := by
      by_contra hno
      simp [decode, decodeParts_of_opc_not_mem hno] at hi
    obtain ⟨f, hf, hw⟩ := List.mem_map.mp hmem
    rw [decode, ← hw] at hi
    obtain ⟨hres, -⟩ | ⟨-, herr⟩ := decodeParts_refusesReserved hf (opdOf w)
    · exact ⟨f, hf, hw.symm, hres⟩
    · simp [herr] at hi
  · rintro ⟨f, hf, hw, hres⟩
    obtain ⟨-, hok⟩ | ⟨hne, -⟩ := decodeParts_refusesReserved hf (opdOf w)
    · rwa [Legal, decode, hw]
    · exact absurd hres hne

theorem decode_of_reservedBits {w : CommandWord} {f : BitVec 8 × BitVec 32} (hf : f ∈ forms) (hw : opcOf w = f.1)
    (hres : opdOf w &&& f.2 ≠ 0) : decode w = .error (.reservedBits (opcOf w)) := by
  obtain ⟨hzero, -⟩ | ⟨-, herr⟩ := decodeParts_refusesReserved hf (opdOf w)
  · exact absurd hzero hres
  · rw [decode, hw, herr]

/-- The reserved opcodes of R94 are none of the map's. -/
theorem reservedOpcode_not_mem_forms :
    ∀ opc : BitVec 8, (opc = 0x00 ∨ (0x09 ≤ opc ∧ opc ≤ 0x0F) ∨ 0x15 ≤ opc) → opc ∉ forms.map Prod.fst := by
  decide

theorem exists_decode_error_of_not_legal {w : CommandWord} (h : ¬ Legal w) : ∃ e, decode w = .error e := by
  cases hw : decode w with
  | error e => exact ⟨e, rfl⟩
  | ok i => exact absurd ⟨i, hw⟩ h

/-! ## The opcode table (R93) -/

theorem word_eq_iff {v w : CommandWord} : v = w ↔ opcOf v = opcOf w ∧ opdOf v = opdOf w := by
  constructor
  · rintro rfl
    exact ⟨rfl, rfl⟩
  · rintro ⟨hopc, hopd⟩
    rw [← wordOf_opcOf_opdOf v, hopc, hopd, wordOf_opcOf_opdOf]

theorem opcOf_and (v w : CommandWord) : opcOf (v &&& w) = opcOf v &&& opcOf w := BitVec.extractLsb'_and

theorem opdOf_and (v w : CommandWord) : opdOf (v &&& w) = opdOf v &&& opdOf w := BitVec.extractLsb'_and

/-- Row by row, the table has the opcodes of the map and masks the reserved bits of their forms. -/
theorem forms_eq_rows : forms = opcodeTable.map fun r => (opcOf r.fixed, opdOf r.mask) := by
  decide

theorem row_fields : ∀ r ∈ opcodeTable, opcOf r.mask = BitVec.allOnes 8 ∧ opdOf r.fixed = 0 := by
  decide

theorem matchesWord_iff {r : OpRow} (hr : r ∈ opcodeTable) (w : CommandWord) :
    r.matchesWord w = true ↔ opcOf w = opcOf r.fixed ∧ opdOf w &&& opdOf r.mask = 0 := by
  obtain ⟨hmask, hfixed⟩ := row_fields r hr
  rw [OpRow.matchesWord, decide_eq_true_iff, word_eq_iff, opcOf_and, opdOf_and, hmask, hfixed, BitVec.and_allOnes]

theorem legal_iff_row (w : CommandWord) : Legal w ↔ ∃ r ∈ opcodeTable, r.matchesWord w = true := by
  rw [legal_iff_form, forms_eq_rows]
  constructor
  · rintro ⟨f, hf, hw, hres⟩
    obtain ⟨r, hr, rfl⟩ := List.mem_map.mp hf
    exact ⟨r, hr, (matchesWord_iff hr w).mpr ⟨hw, hres⟩⟩
  · rintro ⟨r, hr, hw⟩
    exact ⟨_, List.mem_map.mpr ⟨r, hr, rfl⟩, (matchesWord_iff hr w).mp hw⟩

/-- No two rows overlap: they differ in OPC. -/
theorem opcodeTable_rows_disjoint :
    opcodeTable.Pairwise fun r q => ∀ w, ¬(r.matchesWord w = true ∧ q.matchesWord w = true) := by
  have hopc : opcodeTable.Pairwise fun r q => opcOf r.fixed ≠ opcOf q.fixed := by decide
  refine hopc.imp_of_mem fun hr hq hne w => ?_
  rintro ⟨hwr, hwq⟩
  obtain ⟨hr', -⟩ := (matchesWord_iff hr w).mp hwr
  obtain ⟨hq', -⟩ := (matchesWord_iff hq w).mp hwq
  exact hne (hr'.symm.trans hq')

theorem length_filter_eq_one_iff {α : Type} {p : α → Bool} {l : List α}
    (h : l.Pairwise fun a b => ¬(p a = true ∧ p b = true)) : (l.filter p).length = 1 ↔ ∃ a ∈ l, p a = true := by
  induction l with
  | nil => simp
  | cons a l ih =>
    obtain ⟨ha, hl⟩ := List.pairwise_cons.mp h
    cases hp : p a with
    | false => simp [hp, ih hl]
    | true =>
      have hnone : l.filter p = [] := List.filter_eq_nil_iff.mpr fun b hb hpb => ha b hb ⟨hp, hpb⟩
      simp [hp, hnone]

/-- The word of every command lies on the row of its mnemonic. -/
theorem encode_on_row (i : Instr) : Laws.Enc.Statement i := by
  cases i with
  | feed d => exact Laws.Enc.feed d
  | reset => exact Laws.Enc.reset
  | getframe => exact Laws.Enc.getframe
  | readout rc => exact Laws.Enc.readout rc
  | ack k => exact Laws.Enc.ack k
  | seed id txw rclr => exact Laws.Enc.seed id txw rclr
  | readreg k => exact Laws.Enc.readreg k
  | lut k => exact Laws.Enc.lut k
  | accPush b => exact Laws.Enc.accPush b
  | accPushm b => exact Laws.Enc.accPushm b
  | accRevbits => exact Laws.Enc.accRevbits
  | accRevnib => exact Laws.Enc.accRevnib
  | accAlign k => exact Laws.Enc.accAlign k

/-- Settles O3: the forms, and the rows that state them, are what the decoder tests; rows are disjoint, so a match is the one
match. -/
theorem legalIffOneTableRow : Obligations.LegalIffOneTableRow := by
  refine ⟨legal_iff_form, fun w => ?_, opcodeTable_rows_disjoint, fun w i hw => ?_⟩
  · rw [legal_iff_row, length_filter_eq_one_iff (opcodeTable_rows_disjoint.imp fun h => h w)]
  · rw [← encode_of_decode hw]
    exact encode_on_row i

end Sys2Proof

namespace Sys2Proof.Machine

open Sys2Proof.Spec

/-! ## The step on a word (R90, R98) -/

theorem step_of_decode_error {s : State} {w : CommandWord} {rest : List CommandWord} {e : Reject}
    (hs : s.commands = w :: rest) (hw : decode w = .error e) : step s = .next (illegalEffect s rest) := by
  simp [step, nextCommand, hs, hw, illegalCommand, respond, illegalEffect]

theorem withFetchWord_encode_commands (s : State) (i : Instr) :
    (s.withFetchWord 40 (encode i).toNat).commands = encode i :: s.commands := by
  rw [State.withFetchWord, Nat.mod_eq_of_lt (encode i).isLt, BitVec.ofNat_toNat, BitVec.setWidth_eq]

/-- Settles O4: the reserved opcodes are outside the map, the forms refuse their reserved bits, and the step that takes a refused
word is the illegal command. -/
theorem reservedEncodingsAreIllegal : Obligations.ReservedEncodingsAreIllegal :=
  ⟨fun w hw => decodeParts_of_opc_not_mem (reservedOpcode_not_mem_forms _ hw) (opdOf w),
    fun _ _ hf hw hres => decode_of_reservedBits hf hw hres, fun _ _ _ _ hs hw => step_of_decode_error hs hw⟩

/-- Settles O7: the word placed next decodes to its command, which the step runs. -/
theorem fetchedWordIsRun : Obligations.FetchedWordIsRun := fun s i =>
  stepRunsDecodedCommand _ (encode i) s.commands i (withFetchWord_encode_commands s i) (decode_encode i)

/-- Settles O8: a word that is not legal has a reason to be refused, and the step refuses it. -/
theorem illegalWordOnlySetsIll : Obligations.IllegalWordOnlySetsIll := by
  intro s w rest hs hw
  obtain ⟨e, he⟩ := exists_decode_error_of_not_legal hw
  exact step_of_decode_error hs he

end Sys2Proof.Machine
end

section
/-! SUPPORT. Interp (R262): its values fit in 8 bits under every table, and between two consecutive anchors of an ascending table
the search finds their bracket. -/

namespace Sys2Proof.Machine

/-! ## The values of Interp -/

/-- A share `k / n` of a difference `d`, truncated toward zero, lies between 0 and `d`. -/
theorem tdiv_share_bounds {d k n : Int} (hk : 0 ≤ k) (hkn : k ≤ n) (hn : 0 < n) :
    min 0 d ≤ (d * k).tdiv n ∧ (d * k).tdiv n ≤ max 0 d := by
  have hshare {e : Int} (he : 0 ≤ e) : 0 ≤ (e * k).tdiv n ∧ (e * k).tdiv n ≤ e := by
    have hpos := Int.mul_nonneg he hk
    rw [Int.tdiv_eq_ediv_of_nonneg hpos]
    exact ⟨Int.ediv_nonneg hpos hn.le, Int.ediv_le_of_le_mul hn (Int.mul_le_mul_of_nonneg_left hkn he)⟩
  by_cases hd : 0 ≤ d
  · obtain ⟨hlo, hhi⟩ := hshare hd
    omega
  · obtain ⟨hlo, hhi⟩ := hshare (e := -d) (by omega)
    rw [Int.neg_mul, Int.neg_tdiv] at hlo hhi
    omega

theorem interpBetween_bounds {lo hi : Anchor} {raw : BitVec 8} (hlo : lo.code < raw) (hhi : raw ≤ hi.code) :
    min lo.value.toInt hi.value.toInt ≤ interpBetween lo hi raw ∧
      interpBetween lo hi raw ≤ max lo.value.toInt hi.value.toInt := by
  have hlo' : lo.code.toNat < raw.toNat := hlo
  have hhi' : raw.toNat ≤ hi.code.toNat := hhi
  have hshare := tdiv_share_bounds (d := hi.value.toInt - lo.value.toInt) (k := (raw.toNat : Int) - lo.code.toNat)
    (n := (hi.code.toNat : Int) - lo.code.toNat) (by omega) (by omega) (by omega)
  unfold interpBetween
  omega

theorem anchor_value_bounds (a : Anchor) : -128 ≤ a.value.toInt ∧ a.value.toInt < 128 :=
  ⟨BitVec.le_toInt a.value, BitVec.toInt_lt⟩

theorem interpAfter_bounds {prev : Anchor} {raw : BitVec 8} (hprev : prev.code < raw) (rest : List Anchor) :
    -128 ≤ interpAfter prev raw rest ∧ interpAfter prev raw rest < 128 := by
  induction rest generalizing prev with
  | nil => exact anchor_value_bounds prev
  | cons a rest ih =>
    rw [interpAfter]
    split_ifs with ha
    · have hbetween := interpBetween_bounds hprev ha
      have hvalue := anchor_value_bounds prev
      have hvalue' := anchor_value_bounds a
      omega
    · exact ih (BitVec.not_le.mp ha)

theorem interp_bounds (t : CalTable) (raw : BitVec 8) : -128 ≤ interp t raw ∧ interp t raw < 128 := by
  unfold interp
  split_ifs with hfirst
  · exact anchor_value_bounds t.first
  · exact interpAfter_bounds (BitVec.not_le.mp hfirst) t.rest

/-- Interp loses nothing in 8-bit two's complement (R12, R122). -/
@[simp] theorem interpByte_toInt (t : CalTable) (raw : BitVec 8) : (interpByte t raw).toInt = interp t raw := by
  obtain ⟨hlo, hhi⟩ := interp_bounds t raw
  exact BitVec.toInt_ofInt_eq_self (by decide) hlo hhi

/-! ## The bracket of a code -/

/-- The codes of the list `prev :: rest` ascend from neighbour to neighbour (R260). -/
def CodesAscend (prev : Anchor) (rest : List Anchor) : Prop :=
  ∀ p ∈ (prev :: rest).zip rest, p.1.code < p.2.code

theorem codesAscend_cons {prev a : Anchor} {rest : List Anchor} :
    CodesAscend prev (a :: rest) ↔ prev.code < a.code ∧ CodesAscend a rest := by
  simp [CodesAscend]

theorem CodesAscend.code_le {prev lo hi : Anchor} {rest : List Anchor} (h : CodesAscend prev rest)
    (hmem : (lo, hi) ∈ (prev :: rest).zip rest) : prev.code ≤ lo.code := by
  induction rest generalizing prev with
  | nil => simp at hmem
  | cons a rest ih =>
    obtain ⟨hlt, hrest⟩ := codesAscend_cons.mp h
    obtain heq | htail := List.mem_cons.mp hmem
    · obtain ⟨rfl, -⟩ := Prod.mk.inj heq
      exact BitVec.le_refl _
    · have hle := ih hrest htail
      bv_omega

theorem CodesAscend.interpAfter_eq {prev lo hi : Anchor} {rest : List Anchor} {raw : BitVec 8} (h : CodesAscend prev rest)
    (hmem : (lo, hi) ∈ (prev :: rest).zip rest) (hlo : lo.code < raw) (hhi : raw ≤ hi.code) :
    interpAfter prev raw rest = interpBetween lo hi raw := by
  induction rest generalizing prev with
  | nil => simp at hmem
  | cons a rest ih =>
    obtain ⟨-, hrest⟩ := codesAscend_cons.mp h
    rw [interpAfter]
    obtain heq | htail := List.mem_cons.mp hmem
    · obtain ⟨rfl, rfl⟩ := Prod.mk.inj heq
      rw [if_pos hhi]
    · have hle := hrest.code_le htail
      rw [if_neg (by bv_omega), ih hrest htail]

theorem calTable_wf_iff (t : CalTable) : t.wf = true ↔
    t.atLeastTwo = true ∧ t.codesAscend = true ∧ t.firstOk = true ∧ t.middleOk = true ∧ t.lastOk = true := by
  simp [CalTable.wf, and_assoc]

theorem codesAscend_of_wf {t : CalTable} (h : t.wf = true) : CodesAscend t.first t.rest := by
  obtain ⟨-, hasc, -⟩ := (calTable_wf_iff t).mp h
  intro p hp
  exact of_decide_eq_true (List.all_eq_true.mp hasc p hp)

/-- Between two consecutive anchors of a table that meets R260, Interp is their interpolation (R262). -/
theorem interp_of_bracket {t : CalTable} {lo hi : Anchor} {raw : BitVec 8} (h : t.wf = true)
    (hmem : (lo, hi) ∈ t.anchors.zip t.rest) (hlo : lo.code < raw) (hhi : raw ≤ hi.code) :
    interp t raw = interpBetween lo hi raw := by
  have hasc := codesAscend_of_wf h
  have hle := hasc.code_le hmem
  rw [interp, if_neg (by bv_omega), hasc.interpAfter_eq hmem hlo hhi]

/-- R260.5: every table has the consecutive anchors (10, -42) and (20, -22). -/
theorem middle_anchors_of_wf {t : CalTable} (h : t.wf = true) : ∃ lo hi : Anchor, (lo, hi) ∈ t.anchors.zip t.rest ∧
    lo.code = 10 ∧ lo.value.toInt = -42 ∧ hi.code = 20 ∧ hi.value.toInt = -22 := by
  obtain ⟨-, -, -, hmid, -⟩ := (calTable_wf_iff t).mp h
  obtain ⟨⟨lo, hi⟩, hmem, hval⟩ := List.any_eq_true.mp hmid
  exact ⟨lo, hi, hmem, of_decide_eq_true hval⟩

theorem interp_fifteen {t : CalTable} (h : t.wf = true) : interp t 15 = -32 := by
  obtain ⟨lo, hi, hmem, hlc, hlv, hhc, hhv⟩ := middle_anchors_of_wf h
  rw [interp_of_bracket h hmem (by rw [hlc]; decide) (by rw [hhc]; decide)]
  simp only [interpBetween, hlc, hlv, hhc, hhv]
  decide

/-- Settles O26: Interp fits in 8 bits, and 15 lies in the bracket that R260 fixes. -/
theorem lutResult : Obligations.LutResult := by
  intro s k hwf
  refine ⟨interpByte s.params.calTable k, rfl, interpByte_toInt _ k, ?_⟩
  rintro rfl
  apply BitVec.eq_of_toInt_eq
  rw [interpByte_toInt, interp_fifteen hwf]
  decide

end Sys2Proof.Machine
end

section
/-! SUPPORT. What a completed frame's parser answers and writes (R124), by protocol. -/

namespace Sys2Proof.Machine

/-! ## The registers of another protocol (R38 to R42) -/

/-- The registers that belong to another protocol than `p` are the same in both states. -/
structure SameForeign (p : Proto) (s t : State) : Prop where
  probe     : p ≠ .probe → t.probe = s.probe
  station   : p ≠ .station → t.station = s.station
  power     : p ≠ .power → t.power = s.power
  txid      : p ≠ .power → t.txid = s.txid
  rainBase  : p ≠ .station → t.rainBase = s.rainBase
  rainValid : p ≠ .station → t.rainValid = s.rainValid

theorem SameReadings.trans {s t u : State} (hst : SameReadings s t) (htu : SameReadings t u) : SameReadings s u :=
  ⟨htu.params.trans hst.params, htu.dirty.trans hst.dirty, htu.probe.trans hst.probe, htu.station.trans hst.station,
    htu.power.trans hst.power, htu.txid.trans hst.txid, htu.rainBase.trans hst.rainBase, htu.rainValid.trans hst.rainValid⟩

theorem SameReadings.sameForeign {s t : State} (h : SameReadings s t) (p : Proto) : SameForeign p s t :=
  ⟨fun _ => h.probe, fun _ => h.station, fun _ => h.power, fun _ => h.txid, fun _ => h.rainBase, fun _ => h.rainValid⟩

theorem SameForeign.trans {p : Proto} {s t u : State} (hst : SameForeign p s t) (htu : SameForeign p t u) :
    SameForeign p s u :=
  ⟨fun h => (htu.probe h).trans (hst.probe h), fun h => (htu.station h).trans (hst.station h),
    fun h => (htu.power h).trans (hst.power h), fun h => (htu.txid h).trans (hst.txid h),
    fun h => (htu.rainBase h).trans (hst.rainBase h), fun h => (htu.rainValid h).trans (hst.rainValid h)⟩

theorem sameForeign_probe {s t : State} (hstation : t.station = s.station) (hpower : t.power = s.power)
    (htxid : t.txid = s.txid) (hbase : t.rainBase = s.rainBase) (hvalid : t.rainValid = s.rainValid) :
    SameForeign .probe s t :=
  ⟨fun h => absurd rfl h, fun _ => hstation, fun _ => hpower, fun _ => htxid, fun _ => hbase, fun _ => hvalid⟩

theorem sameForeign_station {s t : State} (hprobe : t.probe = s.probe) (hpower : t.power = s.power)
    (htxid : t.txid = s.txid) : SameForeign .station s t :=
  ⟨fun _ => hprobe, fun h => absurd rfl h, fun _ => hpower, fun _ => htxid, fun h => absurd rfl h, fun h => absurd rfl h⟩

theorem sameForeign_power {s t : State} (hprobe : t.probe = s.probe) (hstation : t.station = s.station)
    (hbase : t.rainBase = s.rainBase) (hvalid : t.rainValid = s.rainValid) : SameForeign .power s t :=
  ⟨fun _ => hprobe, fun _ => hstation, fun h => absurd rfl h, fun h => absurd rfl h, fun _ => hbase, fun _ => hvalid⟩

/-! ## Everything a parser can answer -/

/-- Everything Parse_<PROTO>() can do in an instance of protocol `p` (R124): the frame fails its check and nothing is written,
or it is answered with a code that `p` has and registers of `p` alone are written. -/
inductive ParseCase (p : Proto) (s : State) : State × Event → Prop where
  | checkFail : ParseCase p s (s, .checkFail)
  | accept {t : State} {e : Event} (he : e = .frameOk ∨ e = .framePartial ∨ (e = .idCaptured ∧ p = .power))
      (ht : SameForeign p s t) : ParseCase p s (t, e)

theorem parseProbe_cases (s : State) : ParseCase .probe s (parseProbe s) := by
  unfold parseProbe
  dsimp only
  split_ifs
  · exact .checkFail
  · exact .accept (.inr (.inl rfl)) (sameForeign_probe rfl rfl rfl rfl rfl)
  · exact .accept (.inl rfl) (sameForeign_probe rfl rfl rfl rfl rfl)

theorem SameForeign.rainStep {s t : State} (h : SameForeign .station s t) (c : BitVec 14) :
    SameForeign .station s (rainStep c t) := by
  refine h.trans ?_
  unfold Machine.rainStep
  dsimp only
  split <;> exact sameForeign_station (by simp) (by simp) (by simp)

theorem parseStation_cases (s : State) : ParseCase .station s (parseStation s) := by
  unfold parseStation
  dsimp only
  split_ifs
  · exact .checkFail
  · refine .accept (.inl rfl) (SameForeign.rainStep ?_ _)
    exact sameForeign_station rfl rfl rfl
  · exact .accept (.inl rfl) (sameForeign_station rfl rfl rfl)
  · exact .accept (.inr (.inl rfl)) (sameForeign_station rfl rfl rfl)

theorem extractPower_cases (corr : BitVec 16) (s : State) : ParseCase .power s (extractPower corr s) := by
  have hself : SameForeign .power s s := sameForeign_power rfl rfl rfl rfl
  unfold extractPower
  dsimp only
  split
  · split_ifs
    · exact .accept (.inr (.inl rfl)) hself
    · exact .accept (.inl rfl) (sameForeign_power rfl rfl rfl rfl)
  · exact .accept (.inl rfl) (sameForeign_power rfl rfl rfl rfl)
  · exact .accept (.inl rfl) (sameForeign_power rfl rfl rfl rfl)
  · exact .accept (.inr (.inl rfl)) hself

theorem parsePower_cases (s : State) : ParseCase .power s (parsePower s) := by
  unfold parsePower
  dsimp only
  split_ifs
  · exact .accept (.inr (.inr ⟨rfl, rfl⟩)) (sameForeign_power (by simp) (by simp) (by simp) (by simp))
  · exact .checkFail
  · exact extractPower_cases _ s

theorem parseFrame_cases (s : State) : ParseCase s.params.proto s (parseFrame s) := by
  unfold parseFrame
  split
  case h_1 hp => rw [hp]; exact parseProbe_cases s
  case h_2 hp => rw [hp]; exact parseStation_cases s
  case h_3 hp => rw [hp]; exact parsePower_cases s

/-- Everything CompleteFrame() can do with the readings of the state `s` (R124). -/
theorem completeFrame_cases (s : State) :
    ((completeFrame s).evt = .checkFail ∧ SameReadings s (completeFrame s).state) ∨
      (((completeFrame s).evt = .frameOk ∨ (completeFrame s).evt = .framePartial ∨
          ((completeFrame s).evt = .idCaptured ∧ s.params.proto = .power)) ∧
        SameForeign s.params.proto s (completeFrame s).state) := by
  have hlatch := latchFrame_reverseAtComplete_sameReadings s
  have hparse := parseFrame_cases (latchFrame (reverseAtComplete s))
  rw [hlatch.params] at hparse
  unfold completeFrame
  generalize parseFrame (latchFrame (reverseAtComplete s)) = r at hparse ⊢
  cases hparse with
  | checkFail => exact .inl ⟨rfl, hlatch⟩
  | accept he ht => exact .inr ⟨he, (hlatch.sameForeign _).trans ht⟩

end Sys2Proof.Machine
end

section
/-! SUPPORT. FEED: the event it answers, what it leaves unchanged, and what it does in Idle and Complete. -/

namespace Sys2Proof.Machine

open Sys2Proof.Spec

/-- FEED is its pulse, with the event written to LAST_EVT and the response (R110). -/
theorem exec_feed (d : Duration) (s : State) :
    exec (.feed d) s = .next (fedState (feedStep d s).state (feedStep d s).ready (feedStep d s).evt) := rfl

theorem eq_fedState_of_exec_feed {d : Duration} {s t : State} (h : exec (.feed d) s = .next t) :
    t = fedState (feedStep d s).state (feedStep d s).ready (feedStep d s).evt :=
  (Host.Outcome.next.inj h).symm

/-! ## In Idle and in Complete (R111) -/

theorem reject_leaveComplete (e : Event) (s : State) : reject e (leaveComplete s) = reject e s := by
  unfold leaveComplete
  split <;> rfl

theorem beginFrame_leaveComplete (s : State) : beginFrame (leaveComplete s) = beginFrame s := by
  unfold leaveComplete
  split <;> rfl

theorem leaveComplete_idle {s : State} (h : s.dec.dstate = .idle ∨ s.dec.dstate = .complete) :
    (leaveComplete s).dec.dstate = .idle := by
  rcases h with h | h <;> simp [h]

theorem protoStep_of_idle {s : State} (h : s.dec.dstate = .idle) (d : Duration) :
    (Starts s.params d → protoStep d s = beginFrame s) ∧
      (¬ Starts s.params d → protoStep d s = reject .outOfWindow s) := by
  unfold protoStep Starts
  cases hp : s.params.proto with
  | probe => simp +contextual [probeStep, h, probeIdle, prSync, inWindow]
  | station => simp +contextual [stationStep, h, stationIdle, stSync, inWindow]
  | power => simp +contextual [powerStep, h, powerIdle, pmShort]

theorem feedStep_of_idle_or_complete {s : State} (h : s.dec.dstate = .idle ∨ s.dec.dstate = .complete) (d : Duration) :
    (Starts s.params d → feedStep d s = beginFrame s) ∧ (¬ Starts s.params d → feedStep d s = reject .outOfWindow s) := by
  have hstep := protoStep_of_idle (leaveComplete_idle h) d
  rwa [leaveComplete_params, beginFrame_leaveComplete, reject_leaveComplete] at hstep

/-- Settles O43: leaving Complete does not show, because both answers of Idle reset first. -/
theorem feedFromIdleOrComplete : Obligations.FeedFromIdleOrComplete := by
  intro s d h
  obtain ⟨hbegin, hreject⟩ := feedStep_of_idle_or_complete h d
  constructor
  · intro hs
    rw [exec_feed, hbegin hs]
    rfl
  · intro hs
    rw [exec_feed, hreject hs]
    rfl

/-! ## The event (R280) -/

/-- What the answer of a pulse says of the state it leaves, under protocol `p` (R110, R280): the frame goes on, the decoder is
reset, or the frame is complete. -/
inductive AnswerCase (p : Proto) (f : Fed) : Prop where
  | goesOn (hr : f.ready = false) (he : f.evt = .none) (hd : f.state.dec.dstate = .preamble ∨ f.state.dec.dstate = .framing)
  | resets (u : State) (hr : f.ready = false) (hs : f.state = softReset u)
      (he : f.evt = .outOfWindow ∨ f.evt = .preambleMismatch ∨ f.evt = .overflow ∨ (f.evt = .bitMismatch ∧ p = .probe))
  | completes (hr : f.ready = true) (hd : f.state.dec.dstate = .complete)
      (he : f.evt = .checkFail ∨ f.evt = .frameOk ∨ f.evt = .framePartial ∨ (f.evt = .idCaptured ∧ p = .power))

theorem answer_pulse {s : State} {f : Fed} (hc : PulseCase s f) : AnswerCase s.params.proto f := by
  cases hc with
  | begin => exact .goesOn rfl rfl (.inl rfl)
  | reject e he =>
    refine .resets s rfl rfl ?_
    obtain he | he | he := he
    · exact .inl he
    · exact .inr (.inl he)
    · exact .inr (.inr (.inr he))
  | count h => exact .goesOn rfl rfl (.inl h)
  | enterProbe | enterStation | enterPower => exact .goesOn rfl rfl (.inr rfl)
  | overflowStation | overflow => exact .resets _ rfl rfl (.inr (.inr (.inl rfl)))
  | latch _ h | skip h => exact .goesOn rfl rfl (.inr (by simpa using h))
  | push b h _ hf => exact .goesOn rfl rfl (.inr (by simpa [framedBit_dec b hf] using h))
  | complete b =>
    refine .completes rfl (completeFrame_dstate _) ?_
    obtain ⟨he, -⟩ | ⟨he, -⟩ := completeFrame_cases (framedBit b s)
    · exact .inl he
    · rw [framedBit_params] at he
      exact .inr he

/-- Settles O39, by the three kinds of answer. -/
theorem feedAnswersOneEvent : Obligations.FeedAnswersOneEvent := by
  intro s d
  refine ⟨_, (feedStep d s).ready, (feedStep d s).evt, exec_feed d s, rfl, rfl, ?_⟩
  simp only [fedState]
  cases answer_pulse (feedStep_cases d s) with
  | goesOn hr he hd => rcases hd with hd | hd <;> simp [hr, he, hd]
  | resets u hr hs he =>
    rcases he with he | he | he | ⟨he, hp⟩ <;> simp [hr, hs, he]
    exact hp
  | completes hr hd he =>
    rcases he with he | he | he | ⟨he, hp⟩ <;> simp [hr, hd, he]
    exact hp

/-! ## The readings (R124) -/

/-- A pulse that answers none of the three codes of a validated frame leaves every reading. -/
theorem sameReadings_pulse_of_evt {s : State} {f : Fed} (hc : PulseCase s f) (hok : f.evt ≠ .frameOk)
    (hpartial : f.evt ≠ .framePartial) (hid : f.evt ≠ .idCaptured) : SameReadings s f.state := by
  obtain h | ⟨b, -, rfl⟩ := sameReadings_pulse hc
  · exact h
  · obtain ⟨-, h⟩ | ⟨he, -⟩ := completeFrame_cases (framedBit b s)
    · exact (framedBit_sameReadings b s).trans h
    · obtain he | he | ⟨he, -⟩ := he
      · exact absurd he hok
      · exact absurd he hpartial
      · exact absurd he hid

/-- Settles O41: only a completed frame writes readings, and one that fails its check writes none. -/
theorem onlyValidFramesChangeReadings : Obligations.OnlyValidFramesChangeReadings := by
  intro s t d hexec hok hpartial hid
  obtain rfl := eq_fedState_of_exec_feed hexec
  have h := sameReadings_pulse_of_evt (feedStep_cases d s) hok hpartial hid
  exact ⟨h.probe, h.station, h.power, h.dirty, h.txid, h.rainBase, h.rainValid⟩

theorem sameForeign_pulse {s : State} {f : Fed} (hc : PulseCase s f) : SameForeign s.params.proto s f.state := by
  obtain h | ⟨b, -, rfl⟩ := sameReadings_pulse hc
  · exact h.sameForeign _
  · have hbit := framedBit_sameReadings b s
    obtain ⟨-, h⟩ | ⟨-, h⟩ := completeFrame_cases (framedBit b s)
    · exact (hbit.trans h).sameForeign _
    · rw [framedBit_params] at h
      exact (hbit.sameForeign _).trans h

/-! ## The rest of the frame of FEED -/

/-- Everything a pulse can do to the accumulator. -/
theorem acc_pulse {s : State} {f : Fed} (hc : PulseCase s f) :
    f.state.acc = s.acc ∨ f.state.acc = (softReset s).acc ∨ (∃ b, f.state.acc = (pushBit b s).1.acc) ∨
      ∃ b, s.acc.pos ≠ s.params.cap ∧ f.ready = true ∧ f.state.acc = (reverseAtComplete (framedBit b s)).acc := by
  cases hc with
  | begin | reject | overflowStation => exact .inr (.inl rfl)
  | overflow =>
    refine .inr (.inl ?_)
    split
    · simp [softReset]
    · rfl
  | count | enterProbe | enterPower => exact .inl rfl
  | latch | skip => exact .inl (by simp)
  | enterStation b => exact .inr (.inr (.inl ⟨b, rfl⟩))
  | push b _ _ hf => exact .inr (.inr (.inl ⟨b, framedBit_acc b hf⟩))
  | complete b _ _ hf => exact .inr (.inr (.inr ⟨b, hf, rfl, (completeFrame_core _).1.acc⟩))

theorem pushBit_toggle (b : Bool) (s : State) :
    (pushBit b s).1.acc.toggle = s.acc.toggle ∨ (pushBit b s).1.acc.toggle = false := by
  by_cases hf : s.acc.pos = s.params.cap
  · rw [pushBit_full b hf]; exact .inr rfl
  · rw [pushBit_room b hf]; exact .inl rfl

@[simp] theorem reverseAtComplete_buf_length (s : State) : (reverseAtComplete s).acc.buf.length = s.acc.buf.length := by
  rw [reverseAtComplete_acc_buf]
  split <;> simp

/-- The reversal at Complete works on the completed bytes alone (R146). -/
theorem reverseAtComplete_read_of_ge {s : State} {a : Nat} (ha : s.acc.pos.toNat ≤ a) :
    Memory.read (reverseAtComplete s).acc.buf a = Memory.read s.acc.buf a := by
  rw [reverseAtComplete_acc_buf]
  split
  · rw [Memory.read_mapFirst _ rev8_zero, if_neg (by omega)]
  · rfl

theorem toggle_pulse {s : State} {f : Fed} (hc : PulseCase s f) :
    f.state.acc.toggle = s.acc.toggle ∨ f.state.acc.toggle = false := by
  obtain h | h | ⟨b, h⟩ | ⟨b, hf, -, h⟩ := acc_pulse hc
  · exact .inl (by rw [h])
  · exact .inr (by rw [h]; rfl)
  · rw [h]
    exact pushBit_toggle b s
  · rw [h, reverseAtComplete_acc_toggle, framedBit_acc b hf]
    exact pushBit_toggle b s

theorem bufLength_pulse {s : State} {f : Fed} (hc : PulseCase s f) : f.state.acc.buf.length = s.acc.buf.length := by
  obtain h | h | ⟨b, h⟩ | ⟨b, hf, -, h⟩ := acc_pulse hc
  · rw [h]
  · rw [h, softReset_acc_buf]
  · rw [h, pushBit_buf_length]
  · rw [h, reverseAtComplete_buf_length, framedBit_acc b hf, pushBit_buf_length]

/-- A pulse writes no byte of BUF but the one at POS and, when the frame completes, those it reverses. -/
theorem read_pulse {s : State} {f : Fed} (hc : PulseCase s f) {a : Nat} (ha : a ≠ s.acc.pos.toNat)
    (hr : f.ready = true → f.state.acc.pos.toNat ≤ a) :
    Memory.read f.state.acc.buf a = Memory.read s.acc.buf a := by
  obtain h | h | ⟨b, h⟩ | ⟨b, hf, hready, h⟩ := acc_pulse hc
  · rw [h]
  · rw [h, softReset_acc_buf]
  · rw [h, pushBit_read_other b s ha]
  · have hpos := hr hready
    rw [h, reverseAtComplete_acc_pos] at hpos
    rw [h, reverseAtComplete_read_of_ge hpos, framedBit_acc b hf, pushBit_read_other b s ha]

theorem commands_pulse {s : State} {f : Fed} (hc : PulseCase s f) : f.state.commands = s.commands := by
  have hframed (b) : (framedBit b s).commands = s.commands := by
    obtain ⟨-, -, -, -, -, -, -, -, -, -, hcmd⟩ := framedBit_rest b s
    exact hcmd
  cases hc with
  | begin | reject | count | enterProbe | overflowStation | enterPower => rfl
  | enterStation | latch | skip => simp
  | overflow => split <;> simp
  | push b => exact hframed b
  | complete b => simp [(completeFrame_core _).1.commands, hframed]

/-- FLEN is latched at Complete alone (R32, R124). -/
theorem flen_pulse {s : State} {f : Fed} (hc : PulseCase s f) (hr : f.ready = false) : f.state.flen = s.flen := by
  cases hc with
  | begin | reject | count | enterProbe | overflowStation | enterPower => rfl
  | enterStation | latch | skip => simp
  | overflow => split <;> simp
  | push b =>
    obtain ⟨-, hflen, -⟩ := framedBit_rest b s
    exact hflen
  | complete b => exact absurd hr (by simp [(completeFrame_core _).2])

/-- PCOUNT counts in Preamble alone, and a reset clears it (R30). -/
theorem pcount_pulse {s : State} {f : Fed} (hc : PulseCase s f)
    (hd : f.state.dec.dstate = .framing ∨ f.state.dec.dstate = .complete) : f.state.dec.pcount = s.dec.pcount := by
  cases hc with
  | begin | reject | overflowStation | overflow => simp [beginFrame, reject] at hd
  | count h => simp [h] at hd
  | enterProbe | enterPower => rfl
  | enterStation b _ _ hf => rw [pushBit_room b hf]
  | latch | skip => simp
  | push b _ _ hf => simp [framedBit_dec b hf]
  | complete b _ _ hf => simp [(completeFrame_core _).1.dec, framedBit_dec b hf]

/-- Settles O40, field by field, by the cases of one pulse. -/
theorem feedFrame : Obligations.FeedFrame := by
  intro s t d ready evt hexec hresp
  obtain rfl := eq_fedState_of_exec_feed hexec
  obtain ⟨rfl, rfl⟩ : (feedStep d s).ready = ready ∧ (feedStep d s).evt = evt := by simpa [fedState] using hresp
  have hc := feedStep_cases d s
  obtain ⟨hparams, hill⟩ := params_stickyIll_pulse hc
  have hforeign := sameForeign_pulse hc
  exact ⟨hparams, hill, commands_pulse hc, hforeign.probe, hforeign.station,
    fun hp => ⟨hforeign.power hp, hforeign.txid hp⟩, fun hp => ⟨hforeign.rainBase hp, hforeign.rainValid hp⟩,
    bufLength_pulse hc, fun a => read_pulse hc, flen_pulse hc, toggle_pulse hc, pcount_pulse hc⟩

end Sys2Proof.Machine
end

section
/-! SUPPORT. The interface commands of R110 to R121 other than FEED and LUT, and the record of GETFRAME. -/

namespace Sys2Proof.Machine

open Sys2Proof.Spec

/-! ## The frame record (R114) -/

/-- The record depends on FV, FLEN and BUF alone. -/
theorem frameRecord_congr {s t : State} (hv : t.fv = s.fv) (hl : t.flen = s.flen) (hb : t.acc.buf = s.acc.buf) :
    frameRecord t = frameRecord s := by
  simp only [frameRecord, hv, hl, hb]

theorem FrameInv.idle_or_complete_of_fv {s : State} (h : FrameInv s) (hv : s.fv = true) :
    s.dec.dstate = .idle ∨ s.dec.dstate = .complete := by
  cases hd : s.dec.dstate with
  | idle => exact .inl rfl
  | complete => exact .inr rfl
  | preamble => simp [h.preambleFv hd] at hv
  | framing => simp [h.framingFv hd] at hv

/-- A pulse in Idle or Complete that begins no frame is rejected, which leaves the record. -/
theorem feedStep_keeps_record {s : State} {d : Duration} (h : s.dec.dstate = .idle ∨ s.dec.dstate = .complete)
    (hd : (feedStep d s).state.dec.dstate ≠ .preamble) :
    (feedStep d s).state.fv = s.fv ∧ (feedStep d s).state.flen = s.flen ∧
      (feedStep d s).state.acc.buf = s.acc.buf := by
  obtain ⟨hbegin, hreject⟩ := feedStep_of_idle_or_complete h d
  by_cases hs : Starts s.params d
  · rw [hbegin hs] at hd
    exact absurd rfl hd
  · rw [hreject hs]
    exact ⟨rfl, rfl, rfl⟩

theorem after_buf_of_not_feed_not_acc {i : Instr} (hi : ¬ IsFeed i) (ha : ¬ IsAcc i) (s : State) :
    (after i s).acc.buf = s.acc.buf := by
  obtain rfl | h := after_acc_of_not_feed_not_acc hi ha s
  · rfl
  · rw [h]

/-- Settles O19: FLEN is at most CAP, which is the length of BUF. -/
theorem getframeResult : Obligations.GetframeResult := by
  intro s hi
  refine ⟨s.acc.buf.take (if s.fv then s.flen else 0).toNat, rfl, ?_, fun i h => ?_⟩
  · have hlen := hi.acc.length_eq
    have hflen := hi.frame.flenLe
    rw [List.length_take, hlen]
    split
    · exact Nat.min_eq_left hflen
    · exact Nat.zero_min _
  · rw [List.getElem_take, Memory.read_of_lt]

/-- Settles O20: with FV = 1 the instance is in Idle or Complete, where a FEED begins a frame or is rejected; no other command of
the interface writes FV, FLEN or BUF. -/
theorem getframeIsIdempotent : Obligations.GetframeIsIdempotent := by
  intro s t i hinv hfv hacc hexec hpre
  rw [exec_eq_next_after, Host.Outcome.next.injEq] at hexec
  subst hexec
  have hkeep : (after i s).fv = s.fv ∧ (after i s).flen = s.flen ∧ (after i s).acc.buf = s.acc.buf := by
    by_cases hi : IsFeed i
    · have hd := hpre hi
      obtain ⟨d, rfl⟩ := hi
      exact feedStep_keeps_record (hinv.frame.idle_or_complete_of_fv hfv) hd
    · have hs := after_sameStatus_of_not_feed hi s
      exact ⟨hs.fv, hs.flen, after_buf_of_not_feed_not_acc hi hacc s⟩
  obtain ⟨hv, hl, hb⟩ := hkeep
  exact ⟨hv.trans hfv, frameRecord_congr hv hl hb⟩

/-! ## RESET, READOUT, ACK, SEED -/

theorem softReset_of_clear {s : State} (hd : s.dec = ⟨.idle, 0, 0, .none⟩) (hp : s.acc.pos = 0) (hn : s.acc.nbits = 0)
    (ht : s.acc.total = 0) (hg : s.acc.toggle = false) : softReset s = s := by
  unfold softReset
  rw [← hd, ← hp, ← hn, ← ht, ← hg]

/-- Settles O18: RESET is `reset()`, which writes neither FV nor FLEN nor BUF. -/
theorem resetCommandResult : Obligations.ResetCommandResult :=
  ⟨fun _ => ⟨rfl, frameRecord_congr rfl rfl rfl⟩, softReset_softReset, fun _ => softReset_of_clear⟩

/-- Settles O21: the record holds the registers of PROTO, TXID as it reads in POWER. -/
theorem readoutResult : Obligations.ReadoutResult := by
  intro s rc
  refine ⟨outFields s, ?_, fun hp => ?_, fun hp => ?_, fun hp => ?_⟩
  · cases rc <;> rfl
  all_goals simp [outFields, hp, readTxid]

/-- Settles O22: the mask is taken out of DIRTY. -/
theorem ackResult : Obligations.AckResult := by
  intro s k
  refine ⟨s.dirty &&& ~~~k, rfl, fun i hi => ?_⟩
  rw [BitVec.getLsbD_and, BitVec.getLsbD_not, decide_eq_true hi, Bool.true_and]

theorem writeTxid_eq (v : BitVec 16) (s : State) :
    writeTxid v s = { s with txid := if s.params.proto = .power then v else s.txid } := by
  unfold writeTxid
  split <;> rfl

theorem writeRain_eq (base : BitVec 14) (valid : Bool) (s : State) :
    writeRain base valid s = { s with
      rainBase := if s.params.proto = .station then base else s.rainBase
      rainValid := if s.params.proto = .station then valid else s.rainValid } := by
  unfold writeRain
  split <;> rfl

/-- SEED writes a register exactly where its flag is set and PROTO has the register (R120). -/
theorem seedCounters_eq (id : BitVec 16) (txw rclr : Bool) (s : State) :
    seedCounters id txw rclr s = { s with
      txid := if s.params.proto = .power ∧ txw = true then id else s.txid
      rainBase := if s.params.proto = .station ∧ rclr = true then 0 else s.rainBase
      rainValid := if s.params.proto = .station ∧ rclr = true then false else s.rainValid } := by
  unfold seedCounters
  cases txw <;> cases rclr <;> simp [writeTxid_eq, writeRain_eq]

/-- Settles O23: SEED is its two counters and the empty record. -/
theorem seedResult : Obligations.SeedResult := by
  intro s id txw rclr
  change Host.Outcome.next (respond .done (seedCounters id txw rclr s)) = _
  rw [seedCounters_eq]
  rfl

end Sys2Proof.Machine
end

section
/-! SUPPORT. The BitAccumulator commands of R140 to R160: the pushes, the two byte transforms, and the alignment of the tail as
a shift of the bit stream. -/

namespace Sys2Proof.Machine

open Sys2Proof.Spec

/-! ## The pushes (R142, R144) -/

/-- The weight of a pushed bit, as a shift of its number (R142). -/
theorem bitInByte_eq_shift : ∀ (b : Bool) (n : BitVec 3), bitInByte b n = BitVec.ofNat 8 (b.toNat <<< (7 - n.toNat)) := by
  decide

/-- ACC_PUSH answers `ovf` exactly where the buffer is full (R143, R152). -/
theorem exec_accPush (b : Bool) (s : State) :
    exec (.accPush b) s = .next (respond (.push (decide (s.acc.pos = s.params.cap))) (pushBit b s).1) := by
  rw [← pushBit_ovf b]
  rfl

theorem exec_accPushm (v : Bool) (s : State) :
    exec (.accPushm v) s =
      exec (.accPush (xor s.acc.toggle v)) { s with acc := { s.acc with toggle := xor s.acc.toggle v } } :=
  rfl

theorem pushBit_toggle_eq (b : Bool) (s : State) :
    (pushBit b s).1.acc.toggle = if s.acc.pos = s.params.cap then false else s.acc.toggle := by
  by_cases hf : s.acc.pos = s.params.cap
  · rw [pushBit_full b hf, if_pos hf, softReset_acc_toggle]
  · rw [pushBit_room b hf, if_neg hf]

/-- Settles O30: a full buffer is reset, any other takes the bit into BUF[POS]. -/
theorem accPushResult : Obligations.AccPushResult := by
  intro s b
  refine ⟨fun hf => ?_, fun hf => ?_⟩
  · rw [exec_accPush, pushBit_full b hf, decide_eq_true hf]
    rfl
  · rw [exec_accPush, pushBit_room b hf, decide_eq_false hf, pushedByte, bitInByte_eq_shift]
    rfl

/-- Settles O31: ACC_PUSHM is ACC_PUSH of the new TOGGLE on the state that holds it. -/
theorem accPushmResult : Obligations.AccPushmResult := fun s v =>
  ⟨exec_accPushm v s, _, (exec_accPushm v s).trans (exec_accPush _ _), pushBit_toggle_eq _ _, rfl⟩

/-- Settles O32: the record of the command is no part of the bits held. -/
theorem pushAppendsOneBit : Obligations.PushAppendsOneBit := by
  intro s t b hinv hf hexec
  rw [exec_accPush, Host.Outcome.next.injEq] at hexec
  subst hexec
  exact heldBits_pushBit hinv b hf

/-! ## The byte transforms (R146, R148) -/

theorem reverseBitOrder_reverseBitOrder (s : State) : reverseBitOrder (reverseBitOrder s) = s := by
  simp only [reverseBitOrder, Memory.mapFirst_mapFirst rev8_rev8]

theorem reverseNibbles_reverseNibbles (s : State) : reverseNibbles (reverseNibbles s) = s := by
  simp only [reverseNibbles, Memory.mapFirst_mapFirst swapNibbles_swapNibbles]

/-- Settles O33: the bytes below POS are reversed, and no other byte is. -/
theorem revbitsResult : Obligations.RevbitsResult := by
  intro s
  refine ⟨Memory.mapFirst rev8 s.acc.pos.toNat s.acc.buf, rfl, Memory.mapFirst_length _ _ _, fun i j hi hj => ?_,
    fun i hi => ?_⟩
  · rw [Memory.read_mapFirst _ rev8_zero, if_pos hi, rev8_bit _ _ hj, byte]
  · rw [Memory.read_mapFirst _ rev8_zero, if_neg (Nat.not_lt.mpr hi), byte]

/-- Settles O34: the bytes below POS have their nibbles swapped, and no other byte has. -/
theorem revnibResult : Obligations.RevnibResult := by
  intro s
  refine ⟨Memory.mapFirst swapNibbles s.acc.pos.toNat s.acc.buf, rfl, Memory.mapFirst_length _ _ _, fun i hi => ?_,
    fun i hi => ?_⟩
  · rw [Memory.read_mapFirst _ swapNibbles_zero, if_pos hi, swapNibbles_toNat, byte]
  · rw [Memory.read_mapFirst _ swapNibbles_zero, if_neg (Nat.not_lt.mpr hi), byte]

/-- Settles O35: the record of the first command is the record of the second. -/
theorem transformsAreInvolutions : Obligations.TransformsAreInvolutions := by
  rintro i s (rfl | rfl)
  · change Host.Outcome.next (respond .done (reverseBitOrder (reverseBitOrder s))) = _
    rw [reverseBitOrder_reverseBitOrder]
    rfl
  · change Host.Outcome.next (respond .done (reverseNibbles (reverseNibbles s))) = _
    rw [reverseNibbles_reverseNibbles]
    rfl

/-! ## The bytes as one integer (R150) -/

/-- A byte map that leaves the byte with index `i` as it is does not change its reading. -/
theorem Memory.read_mapIdx_of_fixed (m : Memory) {f : Nat → Byte → Byte} {i : Nat} (hf : ∀ b, f i b = b) :
    Memory.read (m.mapIdx f) i = Memory.read m i := by
  by_cases h : i < m.length
  · rw [Memory.read_mapIdx m f h, hf]
  · rw [Memory.read_of_ge (by simpa using h), Memory.read_of_ge (by simpa using h)]

theorem Memory.read_ofInteger_of_ge (m : Memory) (S : Nat) {n i : Nat} (h : n ≤ i) :
    Memory.read (Memory.ofInteger m n S) i = Memory.read m i :=
  Memory.read_mapIdx_of_fixed m fun _ => if_neg (Nat.not_lt.mpr h)

theorem Memory.read_moveDown_of_ge (m : Memory) (n : Nat) {k i : Nat} (h : k ≤ i) :
    Memory.read (Memory.moveDown m k n) i = Memory.read m i :=
  Memory.read_mapIdx_of_fixed m fun _ => if_neg (Nat.not_lt.mpr h)

theorem Memory.toInteger_succ {m : Memory} {n : Nat} (h : n < m.length) :
    Memory.toInteger m (n + 1) = 2 ^ 8 * Memory.toInteger m n + (Memory.read m n).toNat := by
  rw [Memory.read_of_lt h, Memory.toInteger, Memory.toInteger, List.take_succ_eq_append_getElem h, List.foldl_append]
  simp [Nat.mul_comm]

/-- The bits of the integer are the bits of the bytes, the last one lowest, and there are no others. -/
theorem Memory.testBit_toInteger {m : Memory} {n : Nat} (h : n ≤ m.length) (k : Nat) :
    (Memory.toInteger m n).testBit k = (decide (k < 8 * n) && Memory.bit m (8 * n - 1 - k)) := by
  induction n generalizing k with
  | zero => simp [Memory.toInteger]
  | succ n ih =>
    rw [Memory.toInteger_succ h, Nat.testBit_two_pow_mul_add _ (BitVec.isLt _)]
    by_cases hk : k < 8
    · have hbyte : (8 * (n + 1) - 1 - k) / 8 = n := by omega
      have hbit : 7 - (8 * (n + 1) - 1 - k) % 8 = k := by omega
      rw [if_pos hk, decide_eq_true (by omega), Bool.true_and, Memory.bit, hbyte, hbit, BitVec.testBit_toNat]
    · have hlt : k - 8 < 8 * n ↔ k < 8 * (n + 1) := by omega
      have hidx : 8 * n - 1 - (k - 8) = 8 * (n + 1) - 1 - k := by omega
      rw [if_neg hk, ih (by omega), hidx, decide_eq_decide.mpr hlt]

/-- The bits of bytes taken from an integer are the integer's bits, the lowest one last. -/
theorem Memory.bit_ofInteger {m : Memory} {n j : Nat} (S : Nat) (h : n ≤ m.length) (hj : j < 8 * n) :
    Memory.bit (Memory.ofInteger m n S) j = S.testBit (8 * n - 1 - j) := by
  have hidx : 8 * (n - 1 - j / 8) + (7 - j % 8) = 8 * n - 1 - j := by omega
  rw [Memory.bit, Memory.read_ofInteger m n S (by omega), if_pos (by omega), BitVec.getLsbD_ofNat,
    decide_eq_true (by omega), Bool.true_and, Nat.testBit_shiftRight, hidx]

/-- R150's shift of the integer by `k` moves every bit `k` places on and fills with zeros. -/
theorem Memory.bit_shifted {m : Memory} {n k j : Nat} (h : n ≤ m.length) (hj : j < 8 * n) :
    Memory.bit (Memory.ofInteger m n (Memory.toInteger m n >>> k)) j = (decide (k ≤ j) && Memory.bit m (j - k)) := by
  rw [Memory.bit_ofInteger _ h hj, Nat.testBit_shiftRight, Memory.testBit_toInteger h]
  have hlt : k + (8 * n - 1 - j) < 8 * n ↔ k ≤ j := by omega
  have hidx : 8 * n - 1 - (k + (8 * n - 1 - j)) = j - k := by omega
  rw [decide_eq_decide.mpr hlt, hidx]

/-! ## Bit streams -/

theorem Memory.bits_getElem (m : Memory) {n j : Nat} (h : j < (Memory.bits m n).length) :
    (Memory.bits m n)[j] = Memory.bit m j := by
  simp [Memory.bits]

/-- Bytes whose bits stand `k` places on hold `k` zeros and then the old bits. -/
theorem Memory.bits_eq_replicate_append {m m' : Memory} {k n : Nat}
    (h : ∀ j, j < k + n → Memory.bit m' j = (decide (k ≤ j) && Memory.bit m (j - k))) :
    Memory.bits m' (k + n) = List.replicate k false ++ Memory.bits m n := by
  apply List.ext_getElem
  · simp
  · intro j hj _
    rw [Memory.bits_getElem, h j (by simpa using hj), List.getElem_append]
    by_cases hk : j < k
    · simp [hk]
    · simp [hk, Memory.bits_getElem, Nat.not_lt.mp hk]

/-- Bytes whose bits stand `k` places before hold what is left of the old bits without the first `k`. -/
theorem Memory.bits_eq_drop {m m' : Memory} {k n : Nat} (h : ∀ j, j < n → Memory.bit m' j = Memory.bit m (k + j)) :
    Memory.bits m' n = (Memory.bits m (k + n)).drop k := by
  apply List.ext_getElem
  · simp
  · intro j hj _
    rw [List.getElem_drop, Memory.bits_getElem, Memory.bits_getElem, h j (by simpa using hj)]

/-! ## The two halves of alignTail (R150) -/

theorem alignShift_of_zero {a : Accumulator} (h : a.nbits = 0) : alignShift a = a := by
  rw [alignShift, if_pos h]

theorem alignShift_buf_of_ne {a : Accumulator} (h : a.nbits ≠ 0) :
    (alignShift a).buf =
      Memory.ofInteger a.buf (a.pos.toNat + 1) (Memory.toInteger a.buf (a.pos.toNat + 1) >>> (8 - a.nbits.toNat)) := by
  rw [alignShift, if_neg h]

@[simp] theorem alignShift_toggle (a : Accumulator) : (alignShift a).toggle = a.toggle := by
  unfold alignShift
  split <;> rfl

@[simp] theorem alignShift_buf_length (a : Accumulator) : (alignShift a).buf.length = a.buf.length := by
  unfold alignShift
  split <;> simp

theorem alignTruncate_buf (m : BitVec 8) (a : Accumulator) :
    (alignTruncate m a).buf =
      if 0 < m.toNat ∧ m.toNat < a.pos.toNat then Memory.moveDown a.buf m.toNat (a.pos.toNat - m.toNat) else a.buf := by
  unfold alignTruncate
  by_cases h : 0 < m.toNat ∧ m.toNat < a.pos.toNat
  · rw [if_pos h, if_pos (show 0 < m ∧ m < a.pos from h)]
  · rw [if_neg h, if_neg (show ¬(0 < m ∧ m < a.pos) from h)]

@[simp] theorem alignTruncate_toggle (m : BitVec 8) (a : Accumulator) : (alignTruncate m a).toggle = a.toggle := by
  unfold alignTruncate
  split <;> rfl

/-- P of R151: the bytes of BUF that the bits held occupy, a partial byte included. -/
def heldBytes (s : State) : Nat := (s.acc.total.toNat + 7) / 8

/-- 8P - N of R151: the bits that the last of those bytes lacks. -/
def padBits (s : State) : Nat := 8 * heldBytes s - s.acc.total.toNat

theorem padBits_add_total (s : State) : padBits s + s.acc.total.toNat = 8 * heldBytes s := by
  unfold padBits heldBytes
  omega

theorem AccInv.no_partial_byte {s : State} (h : AccInv s) (hn : s.acc.nbits = 0) :
    s.acc.total.toNat = 8 * s.acc.pos.toNat := by
  simpa [hn] using h.totalEq

theorem AccInv.padBits_eq_zero {s : State} (h : AccInv s) (hn : s.acc.nbits = 0) : padBits s = 0 := by
  have htotal := h.no_partial_byte hn
  unfold padBits heldBytes
  omega

/-- A partial byte is held beside the POS completed ones, and BUF has room for it. -/
theorem AccInv.partial_byte {s : State} (h : AccInv s) (hn : s.acc.nbits ≠ 0) :
    s.acc.pos.toNat + 1 ≤ s.acc.buf.length ∧ heldBytes s = s.acc.pos.toNat + 1 ∧ padBits s = 8 - s.acc.nbits.toNat := by
  have hpos := h.pos_lt fun hf => hn (h.fullNbits hf)
  have hlen := h.length_eq
  have htotal := h.totalEq
  have hlt := s.acc.nbits.isLt
  have hne : s.acc.nbits.toNat ≠ 0 := by bv_omega
  unfold padBits heldBytes
  omega

/-- The first half moves the whole stream to the end of its last byte (R151). -/
theorem bit_alignShift {s : State} (h : AccInv s) {j : Nat} (hj : j < 8 * heldBytes s) :
    Memory.bit (alignShift s.acc).buf j = (decide (padBits s ≤ j) && Memory.bit s.acc.buf (j - padBits s)) := by
  by_cases hn : s.acc.nbits = 0
  · rw [alignShift_of_zero hn, h.padBits_eq_zero hn, decide_eq_true (Nat.zero_le j), Bool.true_and, Nat.sub_zero]
  · obtain ⟨hroom, hbytes, hpad⟩ := h.partial_byte hn
    rw [hbytes] at hj
    rw [alignShift_buf_of_ne hn, hpad, Memory.bit_shifted hroom hj]

/-- The bits held after the first half: the old ones behind the zeros that fill their bytes (R151). -/
theorem bits_alignShift {s : State} (h : AccInv s) :
    Memory.bits (alignShift s.acc).buf (8 * heldBytes s) = List.replicate (padBits s) false ++ heldBits s := by
  rw [heldBits, ← padBits_add_total]
  exact Memory.bits_eq_replicate_append fun j hj => bit_alignShift h (padBits_add_total s ▸ hj)

/-- The second half drops the leading bytes of the stream (R151). -/
theorem bit_alignTruncate (m : BitVec 8) {a : Accumulator} (hroom : a.pos.toNat ≤ a.buf.length) {j : Nat}
    (hj : j < 8 * (alignTruncate m a).pos.toNat) :
    Memory.bit (alignTruncate m a).buf j =
      Memory.bit a.buf (8 * (a.pos.toNat - (alignTruncate m a).pos.toNat) + j) := by
  obtain ⟨hpos, -, -⟩ := alignTruncate_pos m a
  rw [hpos] at hj ⊢
  rw [alignTruncate_buf]
  by_cases hm : 0 < m.toNat ∧ m.toNat < a.pos.toNat
  · rw [if_pos hm] at hj ⊢
    rw [if_pos hm]
    have hbyte : (8 * (a.pos.toNat - m.toNat) + j) / 8 = j / 8 + (a.pos.toNat - m.toNat) := by omega
    have hbit : (8 * (a.pos.toNat - m.toNat) + j) % 8 = j % 8 := by omega
    rw [Memory.bit, Memory.bit, Memory.read_moveDown _ _ _ (by omega), if_pos (by omega), hbyte, hbit]
  · rw [if_neg hm, if_neg hm, Nat.sub_self, Nat.mul_zero, Nat.zero_add]

theorem read_alignShift_of_ge {s : State} (h : AccInv s) {i : Nat} (hi : heldBytes s ≤ i) :
    Memory.read (alignShift s.acc).buf i = Memory.read s.acc.buf i := by
  by_cases hn : s.acc.nbits = 0
  · rw [alignShift_of_zero hn]
  · obtain ⟨-, hbytes, -⟩ := h.partial_byte hn
    rw [alignShift_buf_of_ne hn, Memory.read_ofInteger_of_ge _ _ (hbytes ▸ hi)]

/-- Truncation writes only bytes that remain, so those behind keep their values (R150). -/
theorem read_alignTruncate_of_ge {m : BitVec 8} {a : Accumulator} {i : Nat} (hi : m.toNat ≤ i ∨ a.pos.toNat ≤ i) :
    Memory.read (alignTruncate m a).buf i = Memory.read a.buf i := by
  rw [alignTruncate_buf]
  split
  · exact Memory.read_moveDown_of_ge _ _ (by omega)
  · rfl

/-! ## ACC_ALIGN (R160) -/

theorem exec_accAlign (m : BitVec 8) (s : State) : exec (.accAlign m) s = .next (respond .done (alignTail m s)) := rfl

theorem alignTail_buf (m : BitVec 8) (s : State) : (alignTail m s).acc.buf = (alignTruncate m (alignShift s.acc)).buf := rfl

@[simp] theorem alignTail_toggle (m : BitVec 8) (s : State) : (alignTail m s).acc.toggle = s.acc.toggle :=
  (alignTruncate_toggle _ _).trans (alignShift_toggle _)

theorem alignTail_zero_buf (s : State) : (alignTail 0 s).acc.buf = (alignShift s.acc).buf := by
  rw [alignTail_buf, alignTruncate_buf, if_neg (by simp)]

/-- The counters after alignTail: whole bytes, all of them or the last `m`. -/
theorem alignTail_counters {s : State} (h : AccInv s) (m : BitVec 8) :
    (alignTail m s).acc.nbits = 0 ∧
      (alignTail m s).acc.pos.toNat = (if 0 < m.toNat ∧ m.toNat < heldBytes s then m.toNat else heldBytes s) ∧
      (alignTail m s).acc.total.toNat = 8 * (alignTail m s).acc.pos.toNat := by
  obtain ⟨hshift, hnbits, -⟩ := alignShift_pos h
  obtain ⟨hpos, hkept, -⟩ := alignTruncate_pos m (alignShift s.acc)
  rw [hshift] at hpos
  have hn : (alignTail m s).acc.nbits = 0 := hkept.trans hnbits
  exact ⟨hn, hpos, (h.alignTail m).no_partial_byte hn⟩

/-- The bits held after alignTail: those after its first half, cut to the bytes that remain (R151). -/
theorem heldBits_alignTail {s : State} (h : AccInv s) (m : BitVec 8) :
    heldBits (alignTail m s) =
      (List.replicate (padBits s) false ++ heldBits s).drop (8 * (heldBytes s - (alignTail m s).acc.pos.toNat)) := by
  obtain ⟨-, -, htotal⟩ := alignTail_counters h m
  obtain ⟨hshift : (alignShift s.acc).pos.toNat = heldBytes s, -, hcap⟩ := alignShift_pos h
  obtain ⟨-, -, hle⟩ := alignTruncate_pos m (alignShift s.acc)
  have hkeep : (alignTail m s).acc.pos.toNat ≤ heldBytes s := hshift ▸ hle
  have hroom : (alignShift s.acc).pos.toNat ≤ (alignShift s.acc).buf.length := by
    rw [alignShift_buf_length, h.length_eq]
    exact hcap
  have hbits : ∀ j, j < 8 * (alignTail m s).acc.pos.toNat → Memory.bit (alignTail m s).acc.buf j =
      Memory.bit (alignShift s.acc).buf (8 * (heldBytes s - (alignTail m s).acc.pos.toNat) + j) :=
    fun j hj => hshift ▸ bit_alignTruncate m hroom hj
  rw [heldBits, htotal, Memory.bits_eq_drop hbits, ← Nat.mul_add, Nat.sub_add_cancel hkeep, bits_alignShift h]

/-- Settles O36: the padded stream of `heldBits_alignTail`, with the bytes that remain counted by `alignTail_counters`. -/
theorem alignTailIsTheBitStream : Obligations.AlignTailIsTheBitStream := by
  intro s t m hinv hexec n p keep
  rw [exec_accAlign, Host.Outcome.next.injEq] at hexec
  subst hexec
  obtain ⟨hnbits, hpos, htotal⟩ := alignTail_counters hinv m
  exact ⟨hnbits, hpos, htotal.trans (congrArg (8 * ·) hpos),
    (heldBits_alignTail hinv m).trans (by rw [hpos]; rfl)⟩

/-- Settles O37: alignTail keeps TOGGLE, the shift writes no byte past the stream, and truncation none past the last `m`. -/
theorem alignFrame : Obligations.AlignFrame := by
  intro s m hinv
  refine ⟨_, _, exec_accAlign 0 s, exec_accAlign m s, ?_, fun i hi => ?_, fun i _ hi => ?_⟩
  · rw [respond_acc, ← alignTail_toggle m s]
    rfl
  · obtain ⟨hshift, -, -⟩ := alignShift_pos hinv
    exact (read_alignTruncate_of_ge (.inr (hshift ▸ hi))).trans (read_alignShift_of_ge hinv hi)
  · rw [byte, byte, respond_acc, respond_acc, alignTail_zero_buf]
    exact read_alignTruncate_of_ge (.inl hi)

/-! ## The frame of the ACC_* commands (41_accumulator.md section 2) -/

/-- What an ACC_* command may change: the accumulator, the response and, only on an overflow, which writes no byte of BUF, the
decoder. -/
structure AccFrame (s t : State) : Prop where
  others   : t = { s with dec := t.dec, acc := t.acc, response := t.response }
  decKept  : t.response ≠ some (.push true) → t.dec = s.dec
  overflow : t.response = some (.push true) → t.dec = ⟨.idle, 0, 0, .none⟩ ∧ t.acc.buf = s.acc.buf

theorem accFrame_done (s : State) (a : Accumulator) : AccFrame s (respond .done { s with acc := a }) :=
  ⟨rfl, fun _ => rfl, nofun⟩

theorem accFrame_push (b : Bool) (s : State) : AccFrame s (after (.accPush b) s) := by
  have hafter : after (.accPush b) s = respond (.push (decide (s.acc.pos = s.params.cap))) (pushBit b s).1 :=
    Host.Outcome.next.inj ((exec_eq_next_after _ _).symm.trans (exec_accPush b s))
  rw [hafter]
  by_cases hf : s.acc.pos = s.params.cap
  · rw [pushBit_full b hf, decide_eq_true hf]
    exact ⟨rfl, fun h => absurd rfl h, fun _ => ⟨rfl, rfl⟩⟩
  · rw [pushBit_room b hf, decide_eq_false hf]
    exact ⟨rfl, fun _ => rfl, nofun⟩

/-- ACC_PUSHM pushes on a state that differs in TOGGLE alone, which the frame allows. -/
theorem accFrame_after {i : Instr} (hi : IsAcc i) (s : State) : AccFrame s (after i s) := by
  obtain ⟨b, rfl⟩ | ⟨v, rfl⟩ | rfl | rfl | ⟨k, rfl⟩ := hi
  · exact accFrame_push b s
  · obtain ⟨hothers, hdec, hovf⟩ :=
      accFrame_push (xor s.acc.toggle v) { s with acc := { s.acc with toggle := xor s.acc.toggle v } }
    exact ⟨hothers, hdec, hovf⟩
  · exact accFrame_done s _
  · exact accFrame_done s _
  · exact accFrame_done s _

/-- Settles O38: the frame of the five commands, and of the two pushes that they write no byte but BUF[POS]. -/
theorem accCommandsFrame : Obligations.AccCommandsFrame := by
  intro s t i hi hexec
  rw [exec_eq_next_after, Host.Outcome.next.injEq] at hexec
  subst hexec
  obtain ⟨hothers, hdec, hovf⟩ := accFrame_after hi s
  refine ⟨hothers, hdec, hovf, ?_⟩
  rintro ⟨b, rfl | rfl⟩ a ha
  · exact pushBit_read_other b s ha
  · exact pushBit_read_other _ { s with acc := { s.acc with toggle := xor s.acc.toggle b } } ha

end Sys2Proof.Machine
end

section
/-! SUPPORT. The steps of a PROBE instance (R170 to R174), one equation per case of a pulse, and the frame they complete. -/

namespace Sys2Proof.Machine

open Sys2Proof.Spec

/-! ## A pulse in Preamble (R173) -/

theorem feedStep_probe_preamble {s : State} (hp : s.params.proto = .probe) (hd : s.dec.dstate = .preamble)
    (d : Duration) : feedStep d s = probePreamble d s := by
  simp [feedStep, leaveComplete, protoStep, probeStep, hp, hd]

theorem probePreamble_sync {s : State} {d : Duration} (hn : s.dec.pcount < s.params.prPreN)
    (hs : prSync s.params d = true) :
    probePreamble d s = ⟨{ s with dec := { s.dec with pcount := s.dec.pcount + 1 } }, false, .none⟩ := by
  have hne : s.dec.pcount ≠ 255 := by bv_omega
  rw [probePreamble, if_pos hn, if_pos hs, countPreamble_of_ne hne]

theorem probePreamble_not_sync {s : State} {d : Duration} (hn : s.dec.pcount < s.params.prPreN)
    (hs : prSync s.params d = false) : probePreamble d s = reject .preambleMismatch s := by
  simp [probePreamble, hn, hs]

theorem probePreamble_no_class {s : State} {d : Duration} (hn : s.params.prPreN ≤ s.dec.pcount)
    (hc : prClass s.params d = .none) : probePreamble d s = reject .preambleMismatch s := by
  simp [probePreamble, BitVec.not_lt.mpr hn, hc]

theorem probePreamble_high {s : State} {d : Duration} (hn : s.params.prPreN ≤ s.dec.pcount)
    (hc : prClass s.params d ≠ .none) :
    probePreamble d s =
      ⟨{ s with dec := ⟨.framing, s.dec.pcount, 1, prClass s.params d⟩ }, false, .none⟩ := by
  rw [probePreamble, if_neg (BitVec.not_lt.mpr hn)]
  cases h : prClass s.params d with
  | none => exact absurd h hc
  | short | long => rfl

/-- Settles O44, by the four cases of a pulse in Preamble. -/
theorem probePreambleStep : Obligations.ProbePreambleStep := by
  intro s d hp hd
  rw [exec_feed, feedStep_probe_preamble hp hd]
  refine ⟨fun hn hs => ?_, fun hn hs => ?_, fun hn hc => ?_, fun hn hc => ?_⟩
  · rw [probePreamble_sync hn hs]
  · rw [probePreamble_not_sync hn hs]; rfl
  · rw [probePreamble_no_class hn hc]; rfl
  · rw [probePreamble_high hn hc]

/-! ## A pulse in Framing (R174) -/

theorem feedStep_probe_framing {s : State} (hp : s.params.proto = .probe) (hd : s.dec.dstate = .framing)
    (d : Duration) : feedStep d s = probeFraming completeFrame d s := by
  simp [feedStep, leaveComplete, protoStep, probeStep, hp, hd]

theorem probeFraming_no_class {s : State} {d : Duration} (hc : prClass s.params d = .none) :
    probeFraming completeFrame d s = reject .outOfWindow s := by
  simp [probeFraming, hc]

theorem probeFraming_high {s : State} {d : Duration} (hc : prClass s.params d ≠ .none)
    (h0 : s.dec.phase.toNat % 2 = 0) :
    probeFraming completeFrame d s =
      ⟨{ s with dec := ⟨s.dec.dstate, s.dec.pcount, s.dec.phase + 1, prClass s.params d⟩ }, false, .none⟩ := by
  have hne : s.dec.phase ≠ 255 := fun h => by simp [h] at h0
  have hcount (c : HiClass) : countPhase { s with dec := { s.dec with hiclass := c } } = _ := countPhase_of_ne hne
  cases h : prClass s.params d with
  | none => exact absurd h hc
  | short | long => simp [probeFraming, h, h0, hcount]

theorem probeFraming_no_bit {s : State} {d : Duration} (hc : prClass s.params d ≠ .none)
    (h1 : s.dec.phase.toNat % 2 = 1) (hb : probeBit s.dec.hiclass (prClass s.params d) = none) :
    probeFraming completeFrame d s = reject .bitMismatch s := by
  cases h : prClass s.params d with
  | none => exact absurd h hc
  | short | long => rw [h] at hb; simp [probeFraming, h, h1, hb]

/-- A pair that is a bit is pushed, into a full buffer or into one with room. -/
theorem probeFraming_bit {s : State} {d : Duration} {b : Bool} (hp : s.params.proto = .probe)
    (h1 : s.dec.phase.toNat % 2 = 1) (hb : probeBit s.dec.hiclass (prClass s.params d) = some b) :
    probeFraming completeFrame d s =
      if s.acc.pos = s.params.cap then ⟨softReset s, false, .overflow⟩
      else if (framedBit b s).dec.phase = s.params.prPhases then completeFrame (framedBit b s)
      else ⟨framedBit b s, false, .none⟩ := by
  have hbit : framedBit b s = countPhase (pushBit b { s with dec := { s.dec with hiclass := .none } }).1 := by
    simp only [framedBit, hp]
  have hfull := pushBit_full b (s := { s with dec := { s.dec with hiclass := .none } })
  rw [hbit]
  cases h : prClass s.params d with
  | none => cases hh : s.dec.hiclass <;> simp [h, hh, probeBit] at hb
  | short | long =>
    rw [h] at hb
    by_cases hf : s.acc.pos = s.params.cap
    · simp [probeFraming, h, h1, hb, hf, hfull hf, softReset]
    · simp [probeFraming, h, h1, hb, hf]

theorem probeBit_eq_none {h c : HiClass} (h1 : ¬ (h = .long ∧ c = .short)) (h0 : ¬ (h = .short ∧ c = .long)) :
    probeBit h c = none := by
  match h, c with
  | .long, .short => exact absurd ⟨rfl, rfl⟩ h1
  | .short, .long => exact absurd ⟨rfl, rfl⟩ h0
  | .none, _ | .long, .none | .long, .long | .short, .none | .short, .short => rfl

/-- Settles O45, by the three cases of a pulse in Framing that push nothing. -/
theorem probeFramingStep : Obligations.ProbeFramingStep := by
  intro s d hp hd
  rw [exec_feed, feedStep_probe_framing hp hd]
  refine ⟨fun hc => ?_, fun hc h0 => ?_, fun hc h1 hlong hshort => ?_⟩
  · rw [probeFraming_no_class hc]; rfl
  · rw [probeFraming_high hc h0, hd]
  · rw [probeFraming_no_bit hc h1 (probeBit_eq_none hlong hshort)]; rfl

/-! ## The bits of a completed frame (R124, R142, R146) -/

theorem reverseAtComplete_read (s : State) (i : Nat) :
    Memory.read (reverseAtComplete s).acc.buf i =
      if s.params.rev = true ∧ i < s.acc.pos.toNat then rev8 (Memory.read s.acc.buf i) else Memory.read s.acc.buf i := by
  rw [reverseAtComplete_acc_buf]
  by_cases hr : s.params.rev = true
  · simp only [hr, if_true, true_and, Memory.read_mapFirst _ rev8_zero]
  · simp [hr]

/-- CompleteFrame() latches the bits held, each completed byte reversed as REV_<PROTO> says. -/
theorem completed_completeFrame {s : State} (h : AccInv s) :
    Completed s.params.rev (heldBits s) (completeFrame s).state := by
  have hcore := (completeFrame_core s).1
  have hpos : (completeFrame s).state.acc.pos = s.acc.pos := by rw [hcore.acc]; simp
  have hlen : (heldBits s).length = s.acc.total.toNat := Memory.bits_length _ _
  refine ⟨completeFrame_dstate s, hcore.fv, by rw [hcore.flen, hcore.acc]; simp, ?_, fun j hj => ?_⟩
  · have htotal := h.totalEq
    rw [hpos, hlen]
    omega
  · have hbyte : byte (completeFrame s).state (j / 8) = Memory.read (reverseAtComplete s).acc.buf (j / 8) := by
      rw [byte, hcore.acc, latchFrame_acc]
    rw [List.getElem?_eq_getElem hj, hpos, hbyte, reverseAtComplete_read]
    congr 1
    have hheld : (heldBits s)[j] = Memory.bit s.acc.buf j := Memory.bits_getElem _ hj
    rw [hheld, Memory.bit]
    split
    · rw [rev8_bit _ _ (by omega)]
    · rfl

/-! ## A bit committed (R174) -/

theorem heldBits_framedBit {s : State} (h : AccInv s) (b : Bool) (hf : s.acc.pos ≠ s.params.cap) :
    heldBits (framedBit b s) = heldBits s ++ [b] := by
  rw [← heldBits_pushBit h b hf, heldBits, heldBits, framedBit_acc b hf]

/-- Settles O46, by the three outcomes of a pair that is a bit: overflow, completion, or the frame going on. -/
theorem probeCommitsABit : Obligations.ProbeCommitsABit := by
  intro s d b hp hd h1 hne hacc htrue hfalse
  have hbit : probeBit s.dec.hiclass (prClass s.params d) = some b := by
    cases b with
    | true => simp [htrue rfl, probeBit]
    | false => simp [hfalse rfl, probeBit]
  have hstep := probeFraming_bit hp h1 hbit
  rw [exec_feed, feedStep_probe_framing hp hd]
  refine ⟨fun hf => ?_, fun hf => ?_⟩
  · rw [hstep, if_pos hf]
    rfl
  have hdec := framedBit_dec b hf
  rw [countPhase_of_ne hne, if_pos hp] at hdec
  have hheld := heldBits_framedBit hacc b hf
  have htotal : (framedBit b s).acc.total = s.acc.total + 1 := by rw [framedBit_acc b hf, pushBit_room b hf]
  rw [hstep, if_neg hf, hdec]
  by_cases hdone : s.dec.phase + 1 = s.params.prPhases
  · rw [if_pos hdone]
    have hcore := (completeFrame_core (framedBit b s)).1
    have hcompleted := completed_completeFrame (hacc.framedBit b hf)
    rw [framedBit_params, hheld] at hcompleted
    refine ⟨_, rfl, ?_, ?_, ?_, ?_, fun hn => absurd hdone hn, fun _ => hcompleted⟩
    · simp [fedState, hcore.dec, hdec]
    · simp [fedState, hcore.dec, hdec]
    · simp [fedState, hcore.dec, hdec]
    · simp [fedState, hcore.acc, htotal]
  · rw [if_neg hdone]
    exact ⟨_, rfl, by simp [fedState, hdec], by simp [fedState, hdec], by simp [fedState, hdec], htotal,
      fun _ => ⟨by simp [fedState, hdec, hd], rfl, hheld⟩, fun h => absurd h hdone⟩

end Sys2Proof.Machine
end

section
/-! SUPPORT. Parse_PROBE (R180 to R183): its outcomes, in numbers, on the bytes of the completed frame. -/

namespace Sys2Proof.Machine

open Sys2Proof.Spec

/-! ## The checksum (R181) -/

theorem sumBytes_succ (b : Nat → Byte) (n : Nat) : sumBytes b (n + 1) = sumBytes b n + b n := by
  simp [sumBytes, List.range_succ]

theorem sumBytes_congr {b c : Nat → Byte} {n : Nat} (h : ∀ k, k < n → b k = c k) : sumBytes b n = sumBytes c n := by
  induction n with
  | zero => rfl
  | succ n ih => rw [sumBytes_succ, sumBytes_succ, ih fun k hk => h k (by omega), h n (by omega)]

theorem sumBytes_toNat (b : Nat → Byte) (n : Nat) :
    (sumBytes b n).toNat = (∑ k ∈ Finset.range n, (b k).toNat) % 256 := by
  induction n with
  | zero => rfl
  | succ n ih => rw [sumBytes_succ, BitVec.toNat_add, ih, Finset.sum_range_succ, Nat.mod_add_mod]

theorem probeSumOk_iff (b : Nat → Byte) :
    probeSumOk b = true ↔
      ((b 0).toNat + (b 1).toNat + (b 2).toNat + (b 3).toNat + (b 4).toNat + (b 5).toNat) % 256 = (b 6).toNat := by
  rw [probeSumOk, decide_eq_true_iff, ← BitVec.toNat_inj, sumBytes_toNat]
  simp [Finset.sum_range_succ]

/-! ## The fields (R182, R183) -/

theorem trawBits_toNat (hi lo : Byte) :
    (joinBits 11 (hi.extractLsb' 0 4) (lo.extractLsb' 0 7) : BitVec 11).toNat = hi.toNat % 16 * 128 + lo.toNat % 128 := by
  rw [joinBits_toNat _ _ (by decide)]
  simp

theorem channelBits_toNat (b : Byte) : (b.extractLsb' 6 2).toNat = b.toNat / 64 := by
  have hb := b.isLt
  rw [BitVec.extractLsb'_toNat, Nat.shiftRight_eq_div_pow]
  omega

theorem channelBits_eq_one_iff (b : Byte) : b.extractLsb' 6 2 = 1 ↔ b.toNat / 64 = 1 := by
  rw [← BitVec.toNat_inj, channelBits_toNat]
  rfl

/-! ## The outcomes of the parser -/

/-- Everything Parse_PROBE can do in the state `s`. -/
inductive ProbeParse (s : State) : State × Event → Prop where
  | invalid (hsum : probeSumOk (byte s) = false) : ProbeParse s (s, .checkFail)
  | noChannel (o : ProbeOut) (hsum : probeSumOk (byte s) = true) (hch : (byte s 0).toNat / 64 = 1)
      (htraw : o.traw.toNat = (byte s 4).toNat % 16 * 128 + (byte s 5).toNat % 128) (hcode : o.chcode = s.probe.chcode) :
      ProbeParse s ({ s with probe := o, dirty := s.dirty ||| 0x01 }, .framePartial)
  | channel (o : ProbeOut) (hsum : probeSumOk (byte s) = true) (hch : (byte s 0).toNat / 64 ≠ 1)
      (htraw : o.traw.toNat = (byte s 4).toNat % 16 * 128 + (byte s 5).toNat % 128)
      (hcode : o.chcode.toNat = (byte s 0).toNat / 64) :
      ProbeParse s ({ s with probe := o, dirty := s.dirty ||| 0x03 }, .frameOk)

theorem probeParse_parseProbe (s : State) : ProbeParse s (parseProbe s) := by
  have hbyte : Memory.read s.acc.buf = byte s := rfl
  unfold parseProbe
  simp only [hbyte]
  split
  case isTrue hsum => exact .invalid hsum
  case isFalse hsum =>
    have hsum : probeSumOk (byte s) = true := by simpa using hsum
    split
    case isTrue hch =>
      exact .noChannel ⟨_, _⟩ hsum ((channelBits_eq_one_iff _).mp hch) (trawBits_toNat _ _) rfl
    case isFalse hch =>
      have hparse := ProbeParse.channel ⟨_, _⟩ hsum (mt (channelBits_eq_one_iff _).mpr hch) (trawBits_toNat _ _)
        (channelBits_toNat _)
      have hdirty : s.dirty ||| 0x03 = s.dirty ||| BitVec.twoPow 8 0 ||| BitVec.twoPow 8 1 := by
        rw [BitVec.or_assoc]; rfl
      rw [hdirty] at hparse
      exact hparse

/-! ## The FEED that completes a frame (R124) -/

/-- A FEED that answers ready has parsed a state whose readings are still those before the pulse. -/
theorem parsed_of_ready {s : State} {d : Duration} (hr : (feedStep d s).ready = true) :
    ∃ v, SameReadings s v ∧ (feedStep d s).state = (parseFrame v).1 ∧ (feedStep d s).evt = (parseFrame v).2 := by
  have hc := feedStep_cases d s
  generalize feedStep d s = f at hc hr
  cases hc with
  | complete b =>
    exact ⟨_, (framedBit_sameReadings b s).trans (latchFrame_reverseAtComplete_sameReadings _), rfl, rfl⟩
  | begin | reject | count | enterProbe | enterStation | overflowStation | enterPower | latch | skip | overflow | push =>
    cases hr

/-- Settles O51, by the outcomes of the parser. -/
theorem probeFrameParse : Obligations.ProbeFrameParse := by
  intro s t d evt hp hexec hresp
  obtain rfl := eq_fedState_of_exec_feed hexec
  obtain ⟨hready, rfl⟩ : (feedStep d s).ready = true ∧ (feedStep d s).evt = evt := by simpa [fedState] using hresp
  obtain ⟨v, hsame, hstate, hevt⟩ := parsed_of_ready hready
  have hparse := probeParse_parseProbe v
  have hprobe : parseFrame v = parseProbe v := by simp [parseFrame, hsame.params, hp]
  have hvalid := probeSumOk_iff (byte v)
  rw [hstate, hevt, hprobe, hready, ← hsame.probe, ← hsame.dirty]
  generalize parseProbe v = r at hparse
  intro b valid
  cases hparse with
  | invalid hsum =>
    have hinvalid : ¬ valid := fun h => by simp [hvalid.mpr h] at hsum
    exact ⟨fun _ => ⟨rfl, rfl, rfl⟩, fun h => absurd h hinvalid, fun h => absurd h hinvalid, fun h => absurd h hinvalid⟩
  | noChannel o hsum hch htraw hcode =>
    exact ⟨fun h => absurd (hvalid.mp hsum) h, fun _ => htraw, fun _ _ => ⟨rfl, hcode, rfl⟩,
      fun _ h => absurd hch h⟩
  | channel o hsum hch htraw hcode =>
    exact ⟨fun h => absurd (hvalid.mp hsum) h, fun _ => htraw, fun _ h => absurd h hch,
      fun _ _ => ⟨rfl, hcode, rfl⟩⟩

end Sys2Proof.Machine
end

section
/-! SUPPORT. Runs of pulses (R310), and the canonical pulse sequence of a PROBE frame (R175, R177). -/

namespace Sys2Proof.Machine

open Sys2Proof.Spec

/-! ## Runs of pulses -/

theorem after_eq_of_exec {i : Instr} {s t : State} (h : exec i s = .next t) : after i s = t := by
  simpa [exec_eq_next_after] using h

@[simp] theorem feedAll_nil (s : State) : feedAll [] s = s := rfl

@[simp] theorem feedAll_cons (d : Duration) (ds : List Duration) (s : State) :
    feedAll (d :: ds) s = feedAll ds (after (.feed d) s) := rfl

theorem feedAll_append (ds es : List Duration) (s : State) : feedAll (ds ++ es) s = feedAll es (feedAll ds s) := by
  simp [feedAll, afterAll]

/-- The invariants of a quiet host are kept by every pulse (O15 to O17). -/
theorem QuietState.feed {s : State} (h : QuietState s) (d : Duration) : QuietState (after (.feed d) s) := by
  have hparams := (after_params_stickyIll (.feed d) s).1
  exact ⟨by rw [hparams]; exact h.reference, by rw [hparams]; exact h.capOk, stateInv_after _ h.state,
    phaseInv_after _ h.reference h.phase, (h.pulse (feedStep_cases d s)).congr rfl rfl rfl rfl rfl⟩

/-! ## The pulses of a frame under the reference windows (R171, R177) -/

/-- The high phase of a bit (R177). -/
def probeHigh (b : Bool) : Duration := if b then 400 else 200

/-- The low phase of a bit (R177). -/
def probeLow (b : Bool) : Duration := if b then 200 else 400

/-- The class of a bit's high phase, and of the low phase of the other bit (R174). -/
def probeHighClass (b : Bool) : HiClass := if b then .long else .short

theorem probeSequence_eq (f : List Byte) :
    probeSequence f = List.replicate 8 600 ++ (airBits f).flatMap fun b => [probeHigh b, probeLow b] := by
  unfold probeSequence
  congr 2
  funext b
  cases b <;> rfl

theorem airBits_cons (b : Byte) (f : List Byte) :
    airBits (b :: f) = (List.range 8).map (fun i => b.getLsbD i) ++ airBits f := List.flatMap_cons

theorem airBits_length (f : List Byte) : (airBits f).length = 8 * f.length := by
  induction f with
  | nil => rfl
  | cons b f ih =>
    rw [airBits_cons, List.length_append, ih, List.length_map, List.length_range, List.length_cons]
    omega

theorem airBits_getElem? {f : List Byte} {j : Nat} (h : j / 8 < f.length) :
    (airBits f)[j]? = some (f[j / 8].getLsbD (j % 8)) := by
  induction f generalizing j with
  | nil => simp at h
  | cons b f ih =>
    rw [airBits_cons]
    by_cases hj : j < 8
    · have hdiv : j / 8 = 0 := by omega
      rw [List.getElem?_append_left (by simpa using hj)]
      simp [hj, hdiv, Nat.mod_eq_of_lt hj]
    · have hdiv : j / 8 = (j - 8) / 8 + 1 := by omega
      have hmod : (j - 8) % 8 = j % 8 := by omega
      rw [List.length_cons] at h
      rw [List.getElem?_append_right (by simpa using hj), List.length_map, List.length_range, ih (by omega), hmod]
      simp [hdiv]

theorem prSync_of_isReference {p : Params} (h : p.isReference = true) : prSync p 600 = true := by
  rw [prSync, congrArg Params.prSync (reference_of_isReference h)]
  rfl

theorem prClass_of_isReference {p : Params} (h : p.isReference = true) (b : Bool) :
    prClass p (probeHigh b) = probeHighClass b ∧ prClass p (probeLow b) = probeHighClass (!b) := by
  have hlong : p.prLong = ⟨300, 500⟩ := congrArg Params.prLong (reference_of_isReference h)
  have hshort : p.prShort = ⟨100, 300⟩ := congrArg Params.prShort (reference_of_isReference h)
  rw [prClass, prClass, hlong, hshort]
  cases b <;> decide

/-! ## The eight sync pulses (R172, R173) -/

/-- A PROBE instance of a quiet host that has counted `k` sync pulses past the first one. -/
structure ProbeSynced (k : Nat) (s : State) : Prop where
  quiet  : QuietState s
  proto  : s.params.proto = .probe
  dstate : s.dec.dstate = .preamble
  pcount : s.dec.pcount.toNat = k

theorem probeSynced_first {s : State} (hi : StateInv s) (hp : s.params.proto = .probe)
    (href : s.params.isReference = true) (hcap : s.params.capOk = true)
    (hd : s.dec.dstate = .idle ∨ s.dec.dstate = .complete) : ProbeSynced 0 (after (.feed 600) s) := by
  have hstarts : Starts s.params 600 := by
    have hsync := prSync_of_isReference href
    simpa [Starts, hp, prSync, inWindow] using hsync
  have hbegun := after_eq_of_exec ((feedFromIdleOrComplete s 600 hd).1 hstarts)
  have hstate := stateInv_after (.feed 600) hi
  have hphase := phaseInv_after (.feed 600) href (phaseInv_of_outside_frame hd)
  rw [hbegun] at hstate hphase ⊢
  exact ⟨⟨href, hcap, hstate, hphase, quietInv_of_preamble rfl rfl rfl⟩, hp, rfl, rfl⟩

theorem ProbeSynced.sync {k : Nat} {s : State} (h : ProbeSynced k s) (hk : k < 7) :
    ProbeSynced (k + 1) (after (.feed 600) s) := by
  have hN := prPreN_of_isReference h.quiet.reference
  have hcount := h.pcount
  have hquiet := h.quiet.feed 600
  obtain ⟨hstep, -⟩ := probePreambleStep s 600 h.proto h.dstate
  have hnext := after_eq_of_exec
    (hstep (by rw [hN]; bv_omega) (prSync_of_isReference h.quiet.reference))
  rw [hnext] at hquiet ⊢
  refine ⟨hquiet, h.proto, h.dstate, ?_⟩
  simp only [fedState]
  bv_omega

theorem ProbeSynced.replicate {k n : Nat} {s : State} (h : ProbeSynced k s) (hkn : k + n ≤ 7) :
    ProbeSynced (k + n) (feedAll (List.replicate n 600) s) := by
  induction n generalizing k s with
  | zero => exact h
  | succ n ih =>
    rw [List.replicate_succ, feedAll_cons, ← Nat.add_assoc, Nat.add_right_comm]
    exact ih (h.sync (by omega)) (by omega)

/-! ## The bits (R173, R174) -/

/-- A PROBE instance of a quiet host that holds the bits `l` of a frame and awaits the next high phase. -/
structure ProbeAwaits (l : List Bool) (s : State) : Prop where
  quiet : QuietState s
  proto : s.params.proto = .probe
  held  : heldBits s = l
  phase : s.dec.phase.toNat = 2 * l.length
  stage : (s.dec.dstate = .preamble ∧ s.dec.pcount.toNat = 7) ∨ s.dec.dstate = .framing

theorem ProbeSynced.awaits {s : State} (h : ProbeSynced 7 s) : ProbeAwaits [] s := by
  have htotal := h.quiet.quiet.preambleEmpty h.dstate
  obtain ⟨hphase, -⟩ := h.quiet.state.frame.preambleClear h.dstate
  exact ⟨h.quiet, h.proto, by rw [heldBits, htotal]; rfl, by rw [hphase]; rfl, .inl ⟨h.dstate, h.pcount⟩⟩

/-- The state after the high phase of the bit `b`, the bits `l` held. -/
structure ProbeLatched (l : List Bool) (b : Bool) (s : State) : Prop where
  quiet   : QuietState s
  proto   : s.params.proto = .probe
  held    : heldBits s = l
  phase   : s.dec.phase.toNat = 2 * l.length + 1
  dstate  : s.dec.dstate = .framing
  hiclass : s.dec.hiclass = probeHighClass b

theorem ProbeAwaits.high {l : List Bool} {s : State} (h : ProbeAwaits l s) (b : Bool) :
    ProbeLatched l b (after (.feed (probeHigh b)) s) := by
  have hclass := (prClass_of_isReference h.quiet.reference b).1
  have hne : prClass s.params (probeHigh b) ≠ .none := by rw [hclass]; cases b <;> decide
  have hphase := h.phase
  have hquiet := h.quiet.feed (probeHigh b)
  rcases h.stage with ⟨hd, hcount⟩ | hd
  · obtain ⟨-, -, -, hstep⟩ := probePreambleStep s (probeHigh b) h.proto hd
    have hN := prPreN_of_isReference h.quiet.reference
    have hnext := after_eq_of_exec (hstep (by rw [hN]; bv_omega) hne)
    have hclear := (h.quiet.state.frame.preambleClear hd).1
    rw [hnext] at hquiet ⊢
    refine ⟨hquiet, h.proto, h.held, ?_, rfl, hclass⟩
    simp [fedState, ← hphase, hclear]
  · obtain ⟨-, hstep, -⟩ := probeFramingStep s (probeHigh b) h.proto hd
    have hnext := after_eq_of_exec (hstep hne (by omega))
    have hlt := h.quiet.phase_lt hd
    rw [hnext] at hquiet ⊢
    refine ⟨hquiet, h.proto, h.held, ?_, rfl, hclass⟩
    simp only [fedState]
    bv_omega

/-- The low phase commits the bit; the 56th one completes the frame. -/
theorem ProbeLatched.low {l : List Bool} {b : Bool} {s : State} (h : ProbeLatched l b s) :
    (l.length < 55 → ProbeAwaits (l ++ [b]) (after (.feed (probeLow b)) s)) ∧
      (l.length = 55 → Completed s.params.rev (l ++ [b]) (after (.feed (probeLow b)) s)) := by
  have hclass := (prClass_of_isReference h.quiet.reference b).2
  have hphase := h.phase
  have hlt := h.quiet.phase_lt h.dstate
  have hlast : s.params.prPhases.toNat = 112 := by rw [prPhases_of_isReference h.quiet.reference]; rfl
  obtain ⟨-, hcommit⟩ := probeCommitsABit s (probeLow b) b h.proto h.dstate (by omega) (by bv_omega) h.quiet.state.acc
    (by rintro rfl; exact ⟨h.hiclass, hclass⟩) (by rintro rfl; exact ⟨h.hiclass, hclass⟩)
  obtain ⟨t, hexec, htphase, -, -, -, hgoes, hdone⟩ := hcommit (h.quiet.room (.inr h.dstate))
  have hnext := after_eq_of_exec hexec
  have hquiet := h.quiet.feed (probeLow b)
  have hparams := (after_params_stickyIll (.feed (probeLow b)) s).1
  rw [hnext] at hquiet hparams ⊢
  rw [h.held] at hgoes hdone
  refine ⟨fun hl => ?_, fun hl => hdone (by bv_omega)⟩
  obtain ⟨hd, -, hheld⟩ := hgoes (by bv_omega)
  refine ⟨hquiet, hparams ▸ h.proto, hheld, ?_, .inr hd⟩
  rw [htphase, List.length_append, List.length_singleton]
  bv_omega

theorem ProbeAwaits.bits {l bs : List Bool} {s : State} (h : ProbeAwaits l s) (hl : l.length + bs.length ≤ 55) :
    ProbeAwaits (l ++ bs) (feedAll (bs.flatMap fun b => [probeHigh b, probeLow b]) s) := by
  induction bs generalizing l s with
  | nil => simpa using h
  | cons b bs ih =>
    rw [List.length_cons] at hl
    have hnext := (h.high b).low.1 (by omega)
    simpa using ih hnext (by simp; omega)

/-! ## No frame takes fewer than 120 pulses (R175) -/

/-- A count of a PROBE frame's pulses that one pulse raises by at most one and that is 120 in Complete: a potential for R175. -/
def probeProgress (s : State) : Nat :=
  match s.dec.dstate with
  | .idle => 0
  | .preamble => s.dec.pcount.toNat + 1
  | .framing => s.dec.phase.toNat + 8
  | .complete => 120

theorem probeProgress_of_idle {s : State} (h : s.dec.dstate = .idle ∨ s.dec.dstate = .complete) (d : Duration) :
    probeProgress (after (.feed d) s) ≤ 1 := by
  obtain ⟨hbegin, hreject⟩ := feedFromIdleOrComplete s d h
  by_cases hs : Starts s.params d
  · rw [after_eq_of_exec (hbegin hs)]
    exact Nat.le_refl 1
  · rw [after_eq_of_exec (hreject hs)]
    exact Nat.zero_le 1

theorem probeProgress_of_preamble {s : State} (hp : s.params.proto = .probe) (href : s.params.isReference = true)
    (hd : s.dec.dstate = .preamble) (d : Duration) :
    probeProgress (after (.feed d) s) ≤ probeProgress s + 1 := by
  obtain ⟨hsync, hnotSync, hnone, hhigh⟩ := probePreambleStep s d hp hd
  have hs : probeProgress s = s.dec.pcount.toNat + 1 := by rw [probeProgress, hd]
  have hN := prPreN_of_isReference href
  by_cases hn : s.dec.pcount < s.params.prPreN
  · cases hclass : prSync s.params d with
    | true =>
      rw [after_eq_of_exec (hsync hn hclass), hs]
      simp only [fedState, probeProgress, hd]
      bv_omega
    | false =>
      rw [after_eq_of_exec (hnotSync hn hclass)]
      exact Nat.zero_le _
  · have hn := BitVec.not_lt.mp hn
    by_cases hc : prClass s.params d = .none
    · rw [after_eq_of_exec (hnone hn hc)]
      exact Nat.zero_le _
    · rw [after_eq_of_exec (hhigh hn hc), hs]
      rw [hN] at hn
      simp only [fedState, probeProgress]
      bv_omega

theorem probeProgress_of_framing {s : State} (hp : s.params.proto = .probe) (href : s.params.isReference = true)
    (hd : s.dec.dstate = .framing) (hlt : s.dec.phase.toNat < 255) (d : Duration) :
    probeProgress (after (.feed d) s) ≤ probeProgress s + 1 := by
  have hs : probeProgress s = s.dec.phase.toNat + 8 := by rw [probeProgress, hd]
  have hafter : probeProgress (after (.feed d) s) = probeProgress (feedStep d s).state := rfl
  have hcount := countPhase_toNat hlt
  rw [hafter, feedStep_probe_framing hp hd, hs]
  rcases probeFraming_cases d s hp with ⟨e, -, h⟩ | ⟨-, c, -, h⟩ | ⟨-, -, h⟩ | ⟨-, hf, b, ⟨-, h⟩ | ⟨hdone, h⟩⟩
  · rw [h]
    exact Nat.zero_le _
  · have hlatch := countPhase_toNat (s := { s with dec := { s.dec with hiclass := c } }) hlt
    rw [h, probeProgress, countPhase_dec_dstate, hlatch]
    simp only [hd]
    omega
  · rw [h]
    exact Nat.zero_le _
  · rw [h, probeProgress, framedBit_dec b hf, countPhase_dec_dstate]
    simp only [hd]
    omega
  · rw [framedBit_dec b hf, prPhases_of_isReference href] at hdone
    simp only at hdone
    rw [hdone] at hcount
    rw [h, probeProgress, completeFrame_dstate]
    simp at hcount ⊢
    omega

theorem probeProgress_after {s : State} (hp : s.params.proto = .probe) (href : s.params.isReference = true)
    (hlt : probeProgress s < 120) (d : Duration) : probeProgress (after (.feed d) s) ≤ probeProgress s + 1 := by
  cases hd : s.dec.dstate with
  | idle => exact (probeProgress_of_idle (.inl hd) d).trans (Nat.le_add_left 1 _)
  | preamble => exact probeProgress_of_preamble hp href hd d
  | framing =>
    rw [probeProgress, hd] at hlt
    exact probeProgress_of_framing hp href hd (by simp only at hlt; omega) d
  | complete => simp [probeProgress, hd] at hlt

theorem probeProgress_feedAll {s : State} {ds : List Duration} (hp : s.params.proto = .probe)
    (href : s.params.isReference = true) (hlt : probeProgress s + ds.length ≤ 120) :
    probeProgress (feedAll ds s) ≤ probeProgress s + ds.length := by
  induction ds generalizing s with
  | nil => exact Nat.le_refl _
  | cons d ds ih =>
    have hparams := (after_params_stickyIll (.feed d) s).1
    rw [List.length_cons] at hlt ⊢
    have hstep := probeProgress_after hp href (by omega) d
    have hrest := ih (s := after (.feed d) s) (hparams ▸ hp) (hparams ▸ href) (by omega)
    rw [feedAll_cons]
    omega

/-- From Idle or Complete, fewer than 120 pulses complete no frame, whatever the pulses. -/
theorem probe_not_complete_of_length_lt {s : State} {ds : List Duration} (hp : s.params.proto = .probe)
    (href : s.params.isReference = true) (hd : s.dec.dstate = .idle ∨ s.dec.dstate = .complete)
    (hlen : ds.length < 120) (hne : ds ≠ []) : (feedAll ds s).dec.dstate ≠ .complete := by
  cases ds with
  | nil => exact absurd rfl hne
  | cons d ds =>
    intro hcomplete
    have hparams := (after_params_stickyIll (.feed d) s).1
    have hfirst := probeProgress_of_idle hd d
    rw [List.length_cons] at hlen
    have hrest := probeProgress_feedAll (s := after (.feed d) s) (ds := ds) (hparams ▸ hp) (hparams ▸ href) (by omega)
    rw [feedAll_cons] at hcomplete
    have h120 : probeProgress (feedAll ds (after (.feed d) s)) = 120 := by rw [probeProgress, hcomplete]
    omega

/-! ## The completed frame (R175, R177, R181) -/

/-- The frame that the bits of `f` complete, reversed by REV_PROBE = 1, is `f`. -/
theorem byte_of_completed_airBits {f : List Byte} {t : State} (h : Completed true (airBits f) t) {k : Nat}
    (hk : k < f.length) : byte t k = f[k] := by
  obtain ⟨-, -, -, hpos, hbits⟩ := h
  rw [airBits_length] at hpos hbits
  apply BitVec.eq_of_getLsbD_eq
  intro i hi
  have hdiv : (8 * k + i) / 8 = k := by omega
  have hmod : (8 * k + i) % 8 = i := by omega
  have hbit := hbits (8 * k + i) (by omega)
  rw [airBits_getElem? (by omega), if_pos ⟨rfl, by omega⟩, hmod] at hbit
  simpa [hdiv] using hbit.symm

/-- The event of a PROBE frame that completes is CHECK_FAIL exactly when its sum does not check. -/
theorem lastEvt_checkFail_iff {s : State} {d : Duration} (hp : s.params.proto = .probe)
    (hd : (after (.feed d) s).dec.dstate = .complete) :
    (after (.feed d) s).lastEvt = .checkFail ↔ probeSumOk (byte (after (.feed d) s)) = false := by
  obtain ⟨t, ready, evt, hexec, hresp, hevt, -, hready, -⟩ := feedAnswersOneEvent s d
  rw [after_eq_of_exec hexec] at hd ⊢
  obtain rfl := hready.mpr hd
  obtain ⟨hinvalid, -, hpartial, hok⟩ := probeFrameParse s t d evt hp hexec hresp
  have hsum := probeSumOk_iff (byte t)
  rw [hevt]
  cases hs : probeSumOk (byte t) with
  | false => exact iff_of_true (hinvalid fun h => by simp [hsum.mpr h] at hs).1 rfl
  | true =>
    refine iff_of_false ?_ nofun
    by_cases hch : (byte t 0).toNat / 64 = 1
    · rw [(hpartial (hsum.mp hs) hch).1]; decide
    · rw [(hok (hsum.mp hs) hch).1]; decide

/-- The canonical sequence of a 7-byte frame leads to the low phase of its last bit. -/
theorem probeSequence_latched {s : State} {f : List Byte} (hi : StateInv s) (hp : s.params.proto = .probe)
    (href : s.params.isReference = true) (hcap : s.params.capOk = true)
    (hd : s.dec.dstate = .idle ∨ s.dec.dstate = .complete) (hf : f.length = 7) :
    ∃ bs b u, airBits f = bs ++ [b] ∧ bs.length = 55 ∧ ProbeLatched bs b u ∧
      feedAll (probeSequence f) s = after (.feed (probeLow b)) u := by
  have hbits : (airBits f).length = 56 := by rw [airBits_length, hf]
  obtain hnil | ⟨bs, b, hsplit⟩ := List.eq_nil_or_concat (airBits f)
  · simp [hnil] at hbits
  have hbs : bs.length = 55 := by simpa [hsplit] using hbits
  have hsynced := (probeSynced_first hi hp href hcap hd).replicate (n := 7) (by omega)
  have hawaits := hsynced.awaits.bits (bs := bs) (by simp [hbs])
  refine ⟨bs, b, _, by simpa using hsplit, hbs, hawaits.high b, ?_⟩
  have hsync : List.replicate 8 (600 : Duration) = 600 :: List.replicate 7 600 := rfl
  rw [probeSequence_eq, hsync, hsplit]
  simp [feedAll_append]

/-- Settles O55: eight sync pulses, 56 bits, and the frame's bytes from its bits; no shorter run of pulses completes a frame. -/
theorem probeSequenceCompletesItsFrame : Obligations.ProbeSequenceCompletesItsFrame := by
  intro s f hi hp href hcap hd hf t
  have hlength : (probeSequence f).length = 120 := by simp [probeSequence_eq, airBits_length, hf]
  obtain ⟨bs, b, u, hbits, hbs, hlatched, ht⟩ := probeSequence_latched hi hp href hcap hd hf
  have hcompleted := hlatched.low.2 hbs
  have hquiet := hlatched.quiet.feed (probeLow b)
  have hcheck := lastEvt_checkFail_iff (d := probeLow b) hlatched.proto
  have hrev : u.params.rev = true := by
    rw [Params.rev, hlatched.proto, congrArg Params.revProbe (reference_of_isReference hlatched.quiet.reference)]
    rfl
  rw [hrev, ← hbits] at hcompleted
  change feedAll (probeSequence f) s = _ at ht
  rw [← ht] at hcompleted hquiet hcheck
  have hbyte (k : Nat) (hk : k < f.length) := byte_of_completed_airBits hcompleted hk
  obtain ⟨hcomplete, hfv, hflen, hpos, -⟩ := hcompleted
  refine ⟨hlength, hcomplete, hfv, ?_, ?_, ?_, fun n hn hnc => ?_⟩
  · rw [airBits_length, hf] at hpos
    rw [hflen]
    exact BitVec.eq_of_toNat_eq hpos
  · have hbuf := hquiet.state.acc.length_eq
    have hcapBounds := hquiet.capOk
    simp only [Params.capOk, Bool.and_eq_true, decide_eq_true_eq] at hcapBounds
    apply List.ext_getElem
    · rw [List.length_take, hbuf, hf]
      bv_omega
    · intro k hk hkf
      rw [List.getElem_take, ← hbyte k hkf, byte, Memory.read_of_lt]
  · have hget (k : Nat) (hk : k < 7) : byte t k = f.getD k 0 := by
      rw [List.getD_eq_getElem _ _ (by omega)]
      exact hbyte k (by omega)
    have hsum : sumBytes (byte t) 6 = sumBytes (f.getD · 0) 6 := sumBytes_congr fun k hk => hget k (by omega)
    rw [hcheck hcomplete, probeSumOk, decide_eq_false_iff_not, hsum, hget 6 (by omega)]
  · by_contra hne
    refine probe_not_complete_of_length_lt hp href hd ?_ ?_ hnc
    · rw [List.length_take]; omega
    · rw [← List.length_pos_iff, List.length_take]; omega

end Sys2Proof.Machine
end

section
/-! SUPPORT. The steps of a STATION instance (R200 to R204), one equation per case of a pulse. -/

namespace Sys2Proof.Machine

open Sys2Proof.Spec

/-! ## A pulse in Preamble (R203) -/

theorem feedStep_station_preamble {s : State} (hp : s.params.proto = .station) (hd : s.dec.dstate = .preamble)
    (d : Duration) : feedStep d s = stationPreamble d s := by
  simp [feedStep, leaveComplete, protoStep, stationStep, hp, hd]

theorem stationPreamble_sync {s : State} {d : Duration} (hs : stSync s.params d = true) :
    stationPreamble d s = ⟨countPreamble s, false, .none⟩ := by
  rw [stationPreamble, if_pos hs]

theorem stationPreamble_reject {s : State} {d : Duration} (hs : stSync s.params d = false)
    (hb : ¬ (s.params.stPreMin < s.dec.pcount ∧ (stOne s.params d = true ∨ stZero s.params d = true))) :
    stationPreamble d s = reject .preambleMismatch s := by
  rw [stationPreamble, if_neg (by simp [hs]), if_neg hb]

/-- The first data pulse is pushed, into a full buffer (R311; assumption 5) or into one with room. -/
theorem stationPreamble_bit {s : State} {d : Duration} (hs : stSync s.params d = false)
    (hn : s.params.stPreMin < s.dec.pcount) (hb : stOne s.params d = true ∨ stZero s.params d = true) :
    stationPreamble d s =
      if s.acc.pos = s.params.cap then ⟨softReset s, false, .overflow⟩
      else ⟨{ (pushBit (stOne s.params d) s).1 with dec := ⟨.framing, s.dec.pcount, 1, s.dec.hiclass⟩ }, false, .none⟩ := by
  rw [stationPreamble, if_neg (by simp [hs]), if_pos ⟨hn, hb⟩]
  by_cases hf : s.acc.pos = s.params.cap
  · simp [hf, pushBit_full _ hf]
  · simp [hf, pushBit_dec]

/-- Settles O47, by the cases of a pulse in Preamble. -/
theorem stationPreambleStep : Obligations.StationPreambleStep := by
  intro s d hp hd
  rw [exec_feed, feedStep_station_preamble hp hd]
  refine ⟨fun hs => ?_, fun hs hn hb hf => ?_, fun hs hn hb hacc hf => ?_, fun hs hb => ?_⟩
  · rw [stationPreamble_sync hs, countPreamble_sat]
  · rw [stationPreamble_bit hs hn hb, if_pos hf]
    rfl
  · rw [stationPreamble_bit hs hn hb, if_neg hf]
    exact ⟨_, rfl, rfl, heldBits_pushBit hacc _ hf⟩
  · rw [stationPreamble_reject hs hb]
    rfl

/-! ## A pulse in Framing (R204) -/

theorem feedStep_station_framing {s : State} (hp : s.params.proto = .station) (hd : s.dec.dstate = .framing)
    (d : Duration) : feedStep d s = stationFraming completeFrame d s := by
  simp [feedStep, leaveComplete, protoStep, stationStep, hp, hd]

theorem stationFraming_low {s : State} (h1 : s.dec.phase.toNat % 2 = 1) (d : Duration) :
    stationFraming completeFrame d s = ⟨countPhase s, false, .none⟩ := by
  rw [stationFraming, if_pos h1]

theorem stationBit_eq_none {p : Params} {d : Duration} (h1 : stOne p d = false) (h0 : stZero p d = false) :
    stationBit p d = none := by
  simp [stationBit, h1, h0]

theorem stationBit_eq_some {p : Params} {d : Duration} (hb : stOne p d = true ∨ stZero p d = true) :
    stationBit p d = some (stOne p d) := by
  cases h1 : stOne p d with
  | true => simp [stationBit, h1]
  | false => simpa [stationBit, h1] using hb

theorem stationFraming_no_bit {s : State} {d : Duration} (h0 : s.dec.phase.toNat % 2 = 0)
    (hb : stationBit s.params d = none) : stationFraming completeFrame d s = reject .outOfWindow s := by
  simp [stationFraming, h0, hb]

/-- A data pulse is pushed, into a full buffer or into one with room. -/
theorem stationFraming_bit {s : State} {d : Duration} {b : Bool} (hp : s.params.proto = .station)
    (h0 : s.dec.phase.toNat % 2 = 0) (hb : stationBit s.params d = some b) :
    stationFraming completeFrame d s =
      if s.acc.pos = s.params.cap then ⟨softReset s, false, .overflow⟩
      else if (framedBit b s).acc.total = s.params.stBits then completeFrame (framedBit b s)
      else ⟨framedBit b s, false, .none⟩ := by
  have hbit : framedBit b s = countPhase (pushBit b s).1 := by simp only [framedBit, hp]
  rw [hbit]
  by_cases hf : s.acc.pos = s.params.cap
  · simp [stationFraming, h0, hb, hf, pushBit_full b hf]
  · simp [stationFraming, h0, hb, hf]

/-- The push that ends a frame completes it with the bits held before and the pushed one. -/
theorem completed_framedBit {s : State} (h : AccInv s) (b : Bool) (hf : s.acc.pos ≠ s.params.cap) :
    Completed s.params.rev (heldBits s ++ [b]) (completeFrame (framedBit b s)).state := by
  have hcompleted := completed_completeFrame (h.framedBit b hf)
  rwa [framedBit_params, heldBits_framedBit h b hf] at hcompleted

/-- Settles O48, by the cases of a pulse in Framing; a pushed bit ends the frame or not. -/
theorem stationFramingStep : Obligations.StationFramingStep := by
  intro s d hp hd hacc
  rw [exec_feed, feedStep_station_framing hp hd]
  refine ⟨fun h1 hne => ?_, fun h => ?_, fun h0 hone hzero => ?_, fun h0 hb hf => ?_, fun h0 hb hf => ?_⟩
  · rw [stationFraming_low h1, countPhase_of_ne hne]
  · obtain ⟨v, hv, hcount⟩ := countPhase_of_last h
    exact ⟨v, hv, by rw [stationFraming_low (by rw [h]; rfl), hcount]⟩
  · rw [stationFraming_no_bit h0 (stationBit_eq_none hone hzero)]
    rfl
  · rw [stationFraming_bit hp h0 (stationBit_eq_some hb), if_pos hf]
    rfl
  · have hne : s.dec.phase ≠ 255 := fun h => by simp [h] at h0
    have hdec := framedBit_dec (stOne s.params d) hf
    have htotal : (framedBit (stOne s.params d) s).acc.total = s.acc.total + 1 := by
      rw [framedBit_acc _ hf, pushBit_room _ hf]
    rw [countPhase_of_ne hne] at hdec
    rw [stationFraming_bit hp h0 (stationBit_eq_some hb), if_neg hf, htotal]
    by_cases hdone : s.acc.total + 1 = s.params.stBits
    · have hcore := (completeFrame_core (framedBit (stOne s.params d) s)).1
      rw [if_pos hdone]
      exact ⟨_, rfl, by simp [fedState, hcore.dec, hdec], by simp [fedState, hcore.dec, hdec],
        by simp [fedState, hcore.acc, htotal], fun hn => absurd hdone hn, fun _ => completed_framedBit hacc _ hf⟩
    · rw [if_neg hdone]
      exact ⟨_, rfl, by simp [fedState, hdec], by simp [fedState, hdec], htotal,
        fun _ => ⟨by simp [fedState, hdec, hd], rfl, heldBits_framedBit hacc _ hf⟩, fun h => absurd h hdone⟩

end Sys2Proof.Machine
end

section
/-! SUPPORT. DIRTAB, the table of the wind directions (R220). -/

namespace Sys2Proof.Machine

theorem windDegrees_of_entry {v : BitVec 4} {e : Nat} (h : dirTab.getD v.toNat 0 = e) : windDegrees v = e / 10 := by
  rw [windDegrees, h]

/-- Settles O60: the table is fixed data, and its entries are evaluated. -/
theorem dirtabIsACompass : Obligations.DirtabIsACompass := by
  have hmultiple : ∀ e ∈ dirTab, e / 225 < 16 ∧ e = 225 * (e / 225) := by decide
  refine ⟨rfl, fun e he => ⟨e / 225, hmultiple e he⟩, by decide, ?_, ?_, ?_⟩
  · exact (windDegrees_of_entry (e := 0) rfl).trans (by norm_num)
  · exact (windDegrees_of_entry (e := 3150) rfl).trans (by norm_num)
  · exact (windDegrees_of_entry (e := 1800) rfl).trans (by norm_num)

end Sys2Proof.Machine
end

section
/-! SUPPORT. Parse_STATION (R212 to R218): one equation per outcome, and the fields in numbers. -/

namespace Sys2Proof.Machine

open Sys2Proof.Spec

/-! ## The checksum (R213) -/

theorem stationSumOk_iff (b : Nat → Byte) :
    stationSumOk b = true ↔
      ((b 0).toNat + (b 1).toNat + (b 2).toNat + (b 3).toNat + (b 4).toNat + (b 5).toNat + (b 6).toNat) % 256 =
          (b 7).toNat ∧
        ((b 0).toNat + (b 1).toNat + (b 2).toNat + (b 3).toNat + (b 4).toNat + (b 5).toNat + (b 6).toNat) % 256 ≠ 0 := by
  have hzero : (0 : Byte).toNat = 0 := rfl
  rw [stationSumOk, Bool.and_eq_true, decide_eq_true_iff, decide_eq_true_iff, ne_eq, ← BitVec.toNat_inj,
    ← BitVec.toNat_inj, sumBytes_toNat, hzero]
  simp [Finset.sum_range_succ]

/-! ## The fields (R214 to R218) -/

/-- ST_TYPE of the frame in BUF (R215). -/
def typeField (s : State) : BitVec 6 := (byte s 2).extractLsb' 0 6

/-- ST_WRAW of the frame in BUF (R214). -/
def windField (s : State) : BitVec 8 := joinBits 8 ((byte s 3).extractLsb' 0 5) ((byte s 4).extractLsb' 4 3)

/-- The rain count of the frame in BUF (R216). -/
def rainField (s : State) : BitVec 14 := joinBits 14 ((byte s 5).extractLsb' 0 7) ((byte s 6).extractLsb' 0 7)

/-- ST_TRAW of the frame in BUF (R217). -/
def stationTrawField (s : State) : BitVec 11 := joinBits 11 ((byte s 4).extractLsb' 0 4) ((byte s 5).extractLsb' 0 7)

/-- ST_DIR of the frame in BUF (R212, R220). -/
def dirField (s : State) : BitVec 4 := (byte s 4).extractLsb' 0 4

/-- ST_HUM of the frame in BUF (R218). -/
def humField (s : State) : BitVec 7 := (byte s 6).extractLsb' 0 7

/-- ST_BATT of the frame in BUF (R218). -/
def batteryField (s : State) : Bool := (byte s 2).getLsbD 6

theorem typeField_toNat (s : State) : (typeField s).toNat = (byte s 2).toNat % 64 := by
  simp [typeField]

theorem windField_toNat (s : State) :
    (windField s).toNat = (byte s 3).toNat % 32 * 8 + (byte s 4).toNat / 16 % 8 := by
  rw [windField, joinBits_toNat _ _ (by decide), BitVec.extractLsb'_toNat, BitVec.extractLsb'_toNat,
    Nat.shiftRight_eq_div_pow, Nat.shiftRight_eq_div_pow]
  simp

theorem rainField_toNat (s : State) :
    (rainField s).toNat = (byte s 5).toNat % 128 * 128 + (byte s 6).toNat % 128 := by
  rw [rainField, joinBits_toNat _ _ (by decide)]
  simp

theorem stationTrawField_toNat (s : State) :
    (stationTrawField s).toNat = (byte s 4).toNat % 16 * 128 + (byte s 5).toNat % 128 := trawBits_toNat _ _

theorem dirField_toNat (s : State) : (dirField s).toNat = (byte s 4).toNat % 16 := by
  simp [dirField]

theorem humField_toNat (s : State) : (humField s).toNat = (byte s 6).toNat % 128 := by
  simp [humField]

theorem batteryField_eq (s : State) : batteryField s = decide ((byte s 2).toNat / 64 % 2 = 1) := by
  rw [batteryField, BitVec.getLsbD, Nat.testBit_eq_decide_div_mod_eq]

theorem typeField_eq_iff (s : State) {ty : BitVec 6} : typeField s = ty ↔ (byte s 2).toNat % 64 = ty.toNat := by
  rw [← BitVec.toNat_inj, typeField_toNat]

/-! ## The outcomes of the parser -/

/-- The readings that every valid frame gives: wind and type (R214, R215). -/
def headOut (s : State) : StationOut := { s.station with wraw := windField s, type := typeField s }

/-- The state that Parse_STATION reaches in a valid frame before it looks at the type (R214, R215). -/
def headed (s : State) : State := { s with station := headOut s, dirty := s.dirty ||| 0x01 }

theorem rainStep_eq {s : State} (hp : s.params.proto = .station) (c : BitVec 14) :
    rainStep c s =
      { s with
        station := { s.station with rain := if s.rainValid then c - s.rainBase else s.station.rain }
        dirty := s.dirty ||| if s.rainValid then 0x04 else 0x00
        rainBase := c
        rainValid := true } := by
  cases hv : s.rainValid with
  | true => simp [rainStep, setDirty, readRainValid, readRainBase, writeRain, hp, hv, BitVec.twoPow]
  | false => simp [rainStep, readRainValid, writeRain, hp, hv]

theorem parseStation_invalid {s : State} (h : stationSumOk (byte s) = false) : parseStation s = (s, .checkFail) :=
  if_pos h

/-- A valid frame gives its wind and its type, and then what its type selects (R212). -/
theorem parseStation_valid {s : State} (h : stationSumOk (byte s) = true) :
    parseStation s =
      if typeField s = s.params.stTypeA then
        (rainStep (rainField s)
          (setDirty 1 { headed s with station := { headOut s with dir := dirField s } }), .frameOk)
      else if typeField s = s.params.stTypeB then
        (setDirty 5 (setDirty 4 (setDirty 3 { headed s with
          station := { headOut s with traw := stationTrawField s, hum := humField s, batt := batteryField s } })), .frameOk)
      else (headed s, .framePartial) := by
  have hsum : ¬ stationSumOk (byte s) = false := by simp [h]
  exact if_neg hsum

theorem parseStation_typeA {s : State} (hp : s.params.proto = .station) (h : stationSumOk (byte s) = true)
    (hA : typeField s = s.params.stTypeA) :
    parseStation s =
      ({ s with
          station := { headOut s with
            dir := dirField s
            rain := if s.rainValid then rainField s - s.rainBase else s.station.rain }
          dirty := s.dirty ||| if s.rainValid then 0x07 else 0x03
          rainBase := rainField s
          rainValid := true }, .frameOk) := by
  rw [parseStation_valid h, if_pos hA, rainStep_eq]
  case hp => exact hp
  cases hv : s.rainValid <;> simp [hv, headed, headOut, setDirty, BitVec.or_assoc, BitVec.twoPow]

theorem parseStation_typeB {s : State} (h : stationSumOk (byte s) = true) (hA : typeField s ≠ s.params.stTypeA)
    (hB : typeField s = s.params.stTypeB) :
    parseStation s =
      ({ s with
          station := { headOut s with traw := stationTrawField s, hum := humField s, batt := batteryField s }
          dirty := s.dirty ||| 0x39 }, .frameOk) := by
  rw [parseStation_valid h, if_neg hA, if_pos hB]
  simp [headed, setDirty, BitVec.or_assoc, BitVec.twoPow]

theorem parseStation_otherType {s : State} (h : stationSumOk (byte s) = true) (hA : typeField s ≠ s.params.stTypeA)
    (hB : typeField s ≠ s.params.stTypeB) :
    parseStation s = (headed s, .framePartial) := by
  rw [parseStation_valid h, if_neg hA, if_neg hB]

theorem parseStation_wraw_type {s : State} (hp : s.params.proto = .station) (h : stationSumOk (byte s) = true) :
    (parseStation s).1.station.wraw = windField s ∧ (parseStation s).1.station.type = typeField s := by
  by_cases hA : typeField s = s.params.stTypeA
  · rw [parseStation_typeA hp h hA]
    exact ⟨rfl, rfl⟩
  · by_cases hB : typeField s = s.params.stTypeB
    · rw [parseStation_typeB h hA hB]
      exact ⟨rfl, rfl⟩
    · rw [parseStation_otherType h hA hB]
      exact ⟨rfl, rfl⟩

/-! ## The FEED that completes a frame -/

/-- Settles O52, by the outcomes of the parser. -/
theorem stationFrameParse : Obligations.StationFrameParse := by
  intro s t d evt hp href hexec hresp
  obtain rfl := eq_fedState_of_exec_feed hexec
  obtain ⟨hready, rfl⟩ : (feedStep d s).ready = true ∧ (feedStep d s).evt = evt := by simpa [fedState] using hresp
  obtain ⟨v, hsame, hstate, hevt⟩ := parsed_of_ready hready
  have hpv : v.params.proto = .station := by rw [hsame.params, hp]
  have href : v.params.isReference = true := by rw [hsame.params, href]
  have hA : v.params.stTypeA = 0x31 := congrArg Params.stTypeA (reference_of_isReference href)
  have hB : v.params.stTypeB = 0x38 := congrArg Params.stTypeB (reference_of_isReference href)
  have hparse : parseFrame v = parseStation v := by simp [parseFrame, hpv]
  have hbyte (e : Event) (k : Nat) : byte (fedState (parseStation v).1 true e) k = byte v k := by
    rw [byte, byte, fedState, (parseStation_sameCore v).acc]
  rw [hstate, hevt, hparse, hready, ← hsame.station, ← hsame.dirty, ← hsame.rainBase, ← hsame.rainValid]
  simp only [hbyte, ← stationSumOk_iff]
  have htypeA : (byte v 2).toNat % 64 = 0x31 ↔ typeField v = v.params.stTypeA := by rw [hA, typeField_eq_iff]; rfl
  have htypeB : (byte v 2).toNat % 64 = 0x38 ↔ typeField v = v.params.stTypeB := by rw [hB, typeField_eq_iff]; rfl
  refine ⟨fun h => ?_, fun h => ?_, fun h hty => ?_, fun h hty => ?_, fun h hnA hnB => ?_⟩
  · rw [parseStation_invalid (by simpa using h)]
    exact ⟨rfl, rfl, rfl, rfl, rfl⟩
  · obtain ⟨hwraw, hty⟩ := parseStation_wraw_type hpv h
    exact ⟨(congrArg BitVec.toNat hwraw).trans (windField_toNat v), (congrArg BitVec.toNat hty).trans (typeField_toNat v)⟩
  · have hbase := v.rainBase.isLt
    have hrain := rainField_toNat v
    rw [parseStation_typeA hpv h (htypeA.mp hty)]
    refine ⟨rfl, dirField_toNat v, hrain, rfl, rfl, rfl, rfl, fun hv => ?_, fun hv => ?_⟩
    · simp [fedState, hv, BitVec.toNat_sub]
      omega
    · simp [fedState, hv]
  · rw [parseStation_typeB h (mt htypeA.mpr (by omega)) (htypeB.mp hty)]
    exact ⟨rfl, stationTrawField_toNat v, humField_toNat v, batteryField_eq v, rfl, rfl, rfl, rfl, rfl⟩
  · rw [parseStation_otherType h (mt htypeA.mpr hnA) (mt htypeB.mpr hnB)]
    exact ⟨rfl, rfl, rfl, rfl, rfl⟩

end Sys2Proof.Machine
end

section
/-! SUPPORT. The canonical pulse sequence of a STATION frame (R205, R207). -/

namespace Sys2Proof.Machine

open Sys2Proof.Spec

/-! ## Runs that complete a frame with their last pulse -/

/-- The pulses `ds` complete a frame with the bits `l`, and no shorter initial part of them, the empty one included, leads to
Complete. -/
def CompletesAtLast (rev : Bool) (l : List Bool) (ds : List Duration) (s : State) : Prop :=
  Completed rev l (feedAll ds s) ∧ ∀ m, m < ds.length → (feedAll (ds.take m) s).dec.dstate ≠ .complete

theorem completesAtLast_singleton {rev : Bool} {l : List Bool} {d : Duration} {s : State}
    (hd : s.dec.dstate ≠ .complete) (h : Completed rev l (after (.feed d) s)) : CompletesAtLast rev l [d] s := by
  refine ⟨h, fun m hm => ?_⟩
  obtain rfl : m = 0 := by simpa using hm
  exact hd

theorem CompletesAtLast.cons {rev : Bool} {l : List Bool} {d : Duration} {ds : List Duration} {s : State}
    (hd : s.dec.dstate ≠ .complete) (h : CompletesAtLast rev l ds (after (.feed d) s)) :
    CompletesAtLast rev l (d :: ds) s := by
  obtain ⟨hcompleted, hprefix⟩ := h
  refine ⟨hcompleted, fun m hm => ?_⟩
  cases m with
  | zero => exact hd
  | succ m => exact hprefix m (by simpa using hm)

/-- Of a run whose tail completes a frame with its last pulse, a shorter part leads to Complete only where it is empty. -/
theorem CompletesAtLast.eq_zero_of_take_cons {rev : Bool} {l : List Bool} {d : Duration} {ds : List Duration} {s : State}
    (h : CompletesAtLast rev l ds (after (.feed d) s)) {m : Nat} (hm : m < (d :: ds).length)
    (hc : (feedAll ((d :: ds).take m) s).dec.dstate = .complete) : m = 0 := by
  obtain ⟨-, hprefix⟩ := h
  cases m with
  | zero => rfl
  | succ m => exact absurd hc (hprefix m (Nat.lt_of_succ_lt_succ hm))

theorem stateInv_feedAll {s : State} (ds : List Duration) (h : StateInv s) : StateInv (feedAll ds s) := by
  induction ds generalizing s with
  | nil => exact h
  | cons d ds ih => exact ih (stateInv_after _ h)

theorem feedAll_params (ds : List Duration) (s : State) : (feedAll ds s).params = s.params := by
  induction ds generalizing s with
  | nil => rfl
  | cons d ds ih => exact (ih _).trans (after_params_stickyIll (.feed d) s).1

/-- A completed frame with the bits of `f`, reversed, is `f` in BUF. -/
theorem take_buf_of_completed_airBits {f : List Byte} {t : State} (h : Completed true (airBits f) t) (hi : StateInv t)
    (hf : f.length ≤ t.params.cap.toNat) : t.acc.buf.take f.length = f := by
  have hlen := hi.acc.length_eq
  apply List.ext_getElem
  · rw [List.length_take, hlen]
    omega
  · intro k hk hkf
    rw [List.getElem_take, ← byte_of_completed_airBits h hkf, byte, Memory.read_of_lt]

/-! ## The pulses of a frame under the reference windows (R201, R207) -/

/-- The high phase of a bit (R207). -/
def stationHigh (b : Bool) : Duration := if b then 450 else 250

/-- Highs and lows taken in turn are the first high and then lows and highs taken in turn. -/
theorem alternate_cons (h : Duration) (highs lows : List Duration) :
    alternate (h :: highs) lows = h :: alternate lows highs := by
  induction lows generalizing h highs with
  | nil => simp
  | cons l lows ih =>
    cases highs with
    | nil => simp
    | cons h' highs => rw [alternate_cons_cons, alternate_cons_cons, ih]

theorem stationSequence_succ {f : List Byte} {b : Bool} {bs : List Bool} (h : airBits f = b :: bs) (n : Nat)
    (lows : List Duration) :
    stationSequence (n + 1) lows f =
      650 :: (List.replicate n 650 ++ stationHigh b :: alternate lows (bs.map stationHigh)) := by
  rw [stationSequence, h, List.map_cons, alternate_cons]
  rfl

theorem stSync_of_isReference {p : Params} (h : p.isReference = true) : stSync p 650 = true := by
  rw [stSync, congrArg Params.stSync (reference_of_isReference h)]
  rfl

theorem station_windows_of_isReference {p : Params} (h : p.isReference = true) (b : Bool) :
    stSync p (stationHigh b) = false ∧ stOne p (stationHigh b) = b ∧
      (stOne p (stationHigh b) = true ∨ stZero p (stationHigh b) = true) := by
  have hsync : p.stSync = ⟨575, 725⟩ := congrArg Params.stSync (reference_of_isReference h)
  have hone : p.stOne = ⟨375, 525⟩ := congrArg Params.stOne (reference_of_isReference h)
  have hzero : p.stZero = ⟨175, 325⟩ := congrArg Params.stZero (reference_of_isReference h)
  rw [stSync, stOne, stZero, hsync, hone, hzero]
  cases b <;> decide

theorem stPreMin_of_isReference {p : Params} (h : p.isReference = true) : p.stPreMin = 3 :=
  congrArg Params.stPreMin (reference_of_isReference h)

theorem station_rev_of_isReference {p : Params} (hp : p.proto = .station) (h : p.isReference = true) : p.rev = true := by
  rw [Params.rev, hp]
  exact congrArg Params.revStation (reference_of_isReference h)

/-! ## The bits (R204) -/

/-- A STATION instance of a quiet host that frames, holds the bits `l` and has a PHASE of the parity `r`: 1 when the next pulse
is a low phase, 0 when it is a high phase. -/
structure StationFrames (l : List Bool) (r : Nat) (s : State) : Prop where
  quiet  : QuietState s
  proto  : s.params.proto = .station
  dstate : s.dec.dstate = .framing
  held   : heldBits s = l
  parity : s.dec.phase.toNat % 2 = r

theorem StationFrames.not_complete {l : List Bool} {r : Nat} {s : State} (h : StationFrames l r s) :
    s.dec.dstate ≠ .complete := by
  rw [h.dstate]
  decide

theorem StationFrames.low {l : List Bool} {s : State} (h : StationFrames l 1 s) (d : Duration) :
    StationFrames l 0 (after (.feed d) s) := by
  have hlt := h.quiet.phase_lt h.dstate
  have hodd := h.parity
  have hquiet := h.quiet.feed d
  obtain ⟨hstep, -⟩ := stationFramingStep s d h.proto h.dstate h.quiet.state.acc
  have hnext := after_eq_of_exec (hstep hodd (by bv_omega))
  rw [hnext] at hquiet ⊢
  refine ⟨hquiet, h.proto, h.dstate, h.held, ?_⟩
  simp only [fedState]
  bv_omega

/-- The high phase commits the bit; the 64th one completes the frame. -/
theorem StationFrames.high {l : List Bool} {s : State} (h : StationFrames l 0 s) (b : Bool) :
    (l.length + 1 ≠ 64 → StationFrames (l ++ [b]) 1 (after (.feed (stationHigh b)) s)) ∧
      (l.length + 1 = 64 → Completed true (l ++ [b]) (after (.feed (stationHigh b)) s)) := by
  have heven := h.parity
  have hheld := h.held
  have hlength : l.length = s.acc.total.toNat := by rw [← hheld]; exact Memory.bits_length _ _
  have htotal := h.quiet.total_lt h.dstate
  have hbits := stBits_of_isReference h.quiet.reference
  have hquiet := h.quiet.feed (stationHigh b)
  have hparams := (after_params_stickyIll (.feed (stationHigh b)) s).1
  obtain ⟨-, hone, hdata⟩ := station_windows_of_isReference h.quiet.reference b
  obtain ⟨-, -, -, -, hcommit⟩ := stationFramingStep s (stationHigh b) h.proto h.dstate h.quiet.state.acc
  obtain ⟨t, hexec, hphase, -, -, hgoes, hdone⟩ := hcommit heven hdata (h.quiet.room (.inr h.dstate))
  rw [after_eq_of_exec hexec] at hquiet hparams ⊢
  rw [hone, hheld] at hgoes hdone
  rw [station_rev_of_isReference h.proto h.quiet.reference] at hdone
  rw [hbits] at hgoes hdone
  refine ⟨fun hl => ?_, fun hl => hdone (by bv_omega)⟩
  obtain ⟨hd, -, hheld'⟩ := hgoes (by bv_omega)
  refine ⟨hquiet, hparams ▸ h.proto, hd, hheld', ?_⟩
  rw [hphase]
  bv_omega

theorem StationFrames.completes {l bs : List Bool} {lows : List Duration} {s : State} (h : StationFrames l 1 s)
    (hne : bs ≠ []) (hl : l.length + bs.length = 64) (hlows : lows.length = bs.length) :
    CompletesAtLast true (l ++ bs) (alternate lows (bs.map stationHigh)) s := by
  induction bs generalizing l lows s with
  | nil => exact absurd rfl hne
  | cons b bs ih =>
    obtain ⟨d, lows, rfl⟩ := List.exists_cons_of_length_eq_add_one hlows
    have hhigh := (h.low d).high b
    rw [List.map_cons, alternate_cons_cons]
    refine .cons h.not_complete ?_
    rw [List.length_cons] at hl hlows
    by_cases hbs : bs = []
    · obtain rfl := hbs
      obtain rfl : lows = [] := by simpa using hlows
      exact completesAtLast_singleton (h.low d).not_complete (hhigh.2 (by simpa using hl))
    · have hpos := List.length_pos_iff.mpr hbs
      have hrest := ih (hhigh.1 (by omega)) hbs (by simp; omega) (by simpa using hlows)
      rw [List.append_assoc, List.singleton_append] at hrest
      exact .cons (h.low d).not_complete hrest

/-! ## The sync pulses (R202, R203) -/

/-- A STATION instance of a quiet host that has counted `k` sync pulses past the first one, PCOUNT saturating (R30). -/
structure StationSynced (k : Nat) (s : State) : Prop where
  quiet  : QuietState s
  proto  : s.params.proto = .station
  dstate : s.dec.dstate = .preamble
  pcount : s.dec.pcount.toNat = min k 255

theorem StationSynced.not_complete {k : Nat} {s : State} (h : StationSynced k s) : s.dec.dstate ≠ .complete := by
  rw [h.dstate]
  decide

theorem stationSynced_first {s : State} (hi : StateInv s) (hp : s.params.proto = .station)
    (href : s.params.isReference = true) (hcap : s.params.capOk = true)
    (hd : s.dec.dstate = .idle ∨ s.dec.dstate = .complete) : StationSynced 0 (after (.feed 650) s) := by
  have hstarts : Starts s.params 650 := by
    have hsync := stSync_of_isReference href
    simpa [Starts, hp, stSync, inWindow] using hsync
  have hbegun := after_eq_of_exec ((feedFromIdleOrComplete s 650 hd).1 hstarts)
  have hstate := stateInv_after (.feed 650) hi
  rw [hbegun] at hstate ⊢
  exact ⟨⟨href, hcap, hstate, phaseInv_of_station hp, quietInv_of_preamble rfl rfl rfl⟩, hp, rfl, rfl⟩

theorem StationSynced.sync {k : Nat} {s : State} (h : StationSynced k s) :
    StationSynced (k + 1) (after (.feed 650) s) := by
  have hcount := h.pcount
  have hquiet := h.quiet.feed 650
  obtain ⟨hstep, -⟩ := stationPreambleStep s 650 h.proto h.dstate
  have hnext := after_eq_of_exec (hstep (stSync_of_isReference h.quiet.reference))
  rw [hnext] at hquiet ⊢
  refine ⟨hquiet, h.proto, h.dstate, ?_⟩
  simp only [fedState, BitVec.toNat_ofNat]
  omega

/-- The first high phase is a bit once more than ST_PRE_MIN sync pulses have been counted. -/
theorem StationSynced.high {k : Nat} {s : State} (h : StationSynced k s) (hk : 4 ≤ k) (b : Bool) :
    StationFrames [b] 1 (after (.feed (stationHigh b)) s) := by
  have hcount := h.pcount
  have hmin := stPreMin_of_isReference h.quiet.reference
  have hheld : heldBits s = [] := by rw [heldBits, h.quiet.quiet.preambleEmpty h.dstate]; rfl
  have hquiet := h.quiet.feed (stationHigh b)
  have hparams := (after_params_stickyIll (.feed (stationHigh b)) s).1
  obtain ⟨hsync, hone, hdata⟩ := station_windows_of_isReference h.quiet.reference b
  obtain ⟨-, -, henter, -⟩ := stationPreambleStep s (stationHigh b) h.proto h.dstate
  obtain ⟨t, hexec, hdec, hbit⟩ := henter hsync (by rw [hmin]; bv_omega) hdata h.quiet.state.acc
    (h.quiet.room (.inl h.dstate))
  rw [hone, hheld] at hbit
  rw [after_eq_of_exec hexec] at hquiet hparams ⊢
  exact ⟨hquiet, hparams ▸ h.proto, congrArg Decoder.dstate hdec, hbit, by simp [fedState, hdec]⟩

theorem StationSynced.completes {k n : Nat} {b : Bool} {bs : List Bool} {lows : List Duration} {s : State}
    (h : StationSynced k s) (hk : 4 ≤ k + n) (hbs : bs.length = 63) (hlows : lows.length = 63) :
    CompletesAtLast true (b :: bs)
      (List.replicate n 650 ++ stationHigh b :: alternate lows (bs.map stationHigh)) s := by
  induction n generalizing k s with
  | zero =>
    have hframes := h.high hk b
    refine .cons h.not_complete (hframes.completes ?_ ?_ ?_)
    · exact List.ne_nil_of_length_eq_add_one hbs
    · simp [hbs]
    · rw [hbs, hlows]
  | succ n ih => exact .cons h.not_complete (ih h.sync (by omega))

/-- Settles O56: the sync pulses, the 64 bits one by one, and the frame's bytes from its bits. -/
theorem stationSequenceCompletesItsFrame : Obligations.StationSequenceCompletesItsFrame := by
  intro s f n lows hi hp href hcap hd hf hn hlows t
  have hbits : (airBits f).length = 64 := by rw [airBits_length, hf]
  obtain ⟨b, bs, hair⟩ := List.exists_cons_of_length_eq_add_one hbits
  have hbs : bs.length = 63 := by simpa [hair] using hbits
  obtain ⟨k, rfl⟩ : ∃ k, n = k + 1 := ⟨n - 1, by omega⟩
  have hseq := stationSequence_succ hair k lows
  have hlength : (stationSequence (k + 1) lows f).length = k + 1 + 127 := by simp [hseq, hbs, hlows]
  have hrun := (stationSynced_first hi hp href hcap hd).completes (n := k) (b := b) (by omega) hbs hlows
  have hcompleted : Completed true (airBits f) t := by
    simp only [t, hseq, hair]
    exact hrun.1
  have hroom : f.length ≤ t.params.cap.toNat := by
    simp only [Params.capOk, Bool.and_eq_true, decide_eq_true_eq] at hcap
    rw [feedAll_params, hf]
    bv_omega
  have hbuf := take_buf_of_completed_airBits hcompleted (stateInv_feedAll _ hi) hroom
  obtain ⟨hcomplete, hfv, hflen, hpos, -⟩ := hcompleted
  refine ⟨hlength, hcomplete, hfv, ?_, hf ▸ hbuf, fun m hm hc => ?_⟩
  · rw [hbits] at hpos
    rw [hflen]
    exact BitVec.eq_of_toNat_eq hpos
  · rw [← hlength] at hm
    rw [hseq] at hm hc
    exact hrun.eq_zero_of_take_cons hm hc

end Sys2Proof.Machine
end

section
/-! SUPPORT. The steps of a POWER instance (R230 to R234), one equation per case of a pulse. -/

namespace Sys2Proof.Machine

open Sys2Proof.Spec

/-! ## A pulse in Preamble (R233) -/

theorem feedStep_power_preamble {s : State} (hp : s.params.proto = .power) (hd : s.dec.dstate = .preamble)
    (d : Duration) : feedStep d s = powerPreamble d s := by
  simp [feedStep, leaveComplete, protoStep, powerStep, hp, hd]

theorem powerPreamble_short {s : State} {d : Duration} (hs : d < s.params.pmShort) :
    powerPreamble d s = ⟨countPreamble s, false, .none⟩ := by
  simp [powerPreamble, pmShort, hs]

theorem powerPreamble_delimiter {s : State} {d : Duration} (hs : ¬ d < s.params.pmShort) (hd : s.params.pmDelim < d)
    (hn : s.params.pmPreMin ≤ s.dec.pcount) :
    powerPreamble d s = ⟨{ s with dec := ⟨.framing, s.dec.pcount, 0, s.dec.hiclass⟩ }, false, .none⟩ := by
  simp [powerPreamble, pmShort, pmDelim, hs, hd, hn]

theorem powerPreamble_reject {s : State} {d : Duration} (hs : ¬ d < s.params.pmShort)
    (hn : ¬ (s.params.pmDelim < d ∧ s.params.pmPreMin ≤ s.dec.pcount)) :
    powerPreamble d s = reject .preambleMismatch s := by
  simp only [powerPreamble, pmShort, pmDelim, decide_eq_true_eq, if_neg hs, if_neg hn]

/-- Settles O49, by the three cases of a pulse in Preamble. -/
theorem powerPreambleStep : Obligations.PowerPreambleStep := by
  intro s d hp hd
  rw [exec_feed, feedStep_power_preamble hp hd]
  refine ⟨fun hs => ?_, fun hs hdelim hn => ?_, fun hs hn => ?_⟩
  · rw [powerPreamble_short hs, countPreamble_sat]
  · rw [powerPreamble_delimiter hs hdelim hn]
  · rw [powerPreamble_reject hs hn]
    rfl

/-! ## A pulse in Framing (R234) -/

theorem feedStep_power_framing {s : State} (hp : s.params.proto = .power) (hd : s.dec.dstate = .framing)
    (d : Duration) : feedStep d s = powerFraming completeFrame d s := by
  simp [feedStep, leaveComplete, protoStep, powerStep, hp, hd]

theorem powerFraming_high {s : State} (h0 : s.dec.phase.toNat % 2 = 0) (d : Duration) :
    powerFraming completeFrame d s = ⟨{ s with dec := { s.dec with phase := s.dec.phase + 1 } }, false, .none⟩ := by
  have hne : s.dec.phase ≠ 255 := fun h => by simp [h] at h0
  have hodd : (s.dec.phase + 1).toNat % 2 = 1 := by bv_omega
  rw [powerFraming, countPhase_of_ne hne]
  exact if_pos hodd

/-- A low phase is pushed as a bit, into a full buffer or into one with room. -/
theorem powerFraming_low {s : State} (hp : s.params.proto = .power) (h1 : s.dec.phase.toNat % 2 = 1)
    (hne : s.dec.phase ≠ 255) (d : Duration) :
    powerFraming completeFrame d s =
      if s.acc.pos = s.params.cap then ⟨softReset s, false, .overflow⟩
      else if s.dec.phase + 1 = s.params.pmPulses then completeFrame (framedBit (pmShort s.params d) s)
      else ⟨framedBit (pmShort s.params d) s, false, .none⟩ := by
  have hcount := countPhase_of_ne hne
  have hphase : (countPhase s).dec.phase = s.dec.phase + 1 := by rw [hcount]
  have heven : (s.dec.phase + 1).toNat % 2 = 0 := by bv_omega
  rcases powerFraming_cases d s hp with ⟨hb, -⟩ | ⟨-, hf, h⟩ | ⟨-, hf, hdone⟩
  · rw [hphase] at hb
    omega
  · rw [h, if_pos hf, hcount]
    rfl
  · simp only [framedBit_dec _ hf, hphase] at hdone
    rw [if_neg hf]
    rcases hdone with ⟨hdone, h⟩ | ⟨hdone, h⟩
    · rw [h, if_neg hdone]
    · rw [h, if_pos hdone]

/-- Settles O50, by the cases of a pulse in Framing; a pushed bit ends the frame or not. -/
theorem powerFramingStep : Obligations.PowerFramingStep := by
  intro s d hp hd hne hacc
  rw [exec_feed, feedStep_power_framing hp hd]
  refine ⟨fun h0 => ?_, fun h1 hf => ?_, fun h1 hf => ?_⟩
  · rw [powerFraming_high h0]
  · rw [powerFraming_low hp h1 hne, if_pos hf]
    rfl
  have hdec := framedBit_dec (pmShort s.params d) hf
  have htotal : (framedBit (pmShort s.params d) s).acc.total = s.acc.total + 1 := by
    rw [framedBit_acc _ hf, pushBit_room _ hf]
  rw [countPhase_of_ne hne] at hdec
  rw [powerFraming_low hp h1 hne, if_neg hf]
  by_cases hdone : s.dec.phase + 1 = s.params.pmPulses
  · have hcore := (completeFrame_core (framedBit (pmShort s.params d) s)).1
    rw [if_pos hdone]
    exact ⟨_, rfl, by simp [fedState, hcore.dec, hdec], by simp [fedState, hcore.dec, hdec],
      by simp [fedState, hcore.acc, htotal], fun hn => absurd hdone hn, fun _ => completed_framedBit hacc _ hf⟩
  · rw [if_neg hdone]
    exact ⟨_, rfl, by simp [fedState, hdec], by simp [fedState, hdec], htotal,
      fun _ => ⟨by simp [fedState, hdec, hd], rfl, heldBits_framedBit hacc _ hf⟩, fun h => absurd h hdone⟩

end Sys2Proof.Machine
end

section
/-! SUPPORT. The CRC-8 of R239, from its 16-bit register down to the 8-bit form with the polynomial x^8 + x^2 + x + 1. -/

namespace Sys2Proof.Machine

/-- One round of the CRC in its 8-bit form: a shift, and the polynomial 0x07 where a 1 is shifted out. -/
def crcShift (y : Byte) : Byte := y <<< 1 ^^^ if y.getLsbD 7 then 0x07 else 0x00

/-- The low byte of the 16-bit register is 0 before and after a round, and a round is `crcShift` of its high byte. -/
theorem crcRound_joinBits : ∀ y : Byte, crcRound (joinBits 16 y 0#8) = joinBits 16 (crcShift y) 0#8 := by
  decide

theorem iterate_crcRound_joinBits (n : Nat) (y : Byte) :
    Nat.iterate crcRound n (joinBits 16 y 0#8) = joinBits 16 (Nat.iterate crcShift n y) 0#8 :=
  ((Function.Semiconj.iterate_right (f := (joinBits 16 · 0#8)) (fun y => (crcRound_joinBits y).symm) n) y).symm

theorem extractLsb'_joinBits_zero (y : Byte) : (joinBits 16 y 0#8).extractLsb' 8 8 = y := by
  apply BitVec.eq_of_toNat_eq
  rw [BitVec.extractLsb'_toNat, joinBits_toNat y 0#8 (by decide), Nat.shiftRight_eq_div_pow]
  simpa using y.isLt

theorem crcByte_eq (c x : Byte) : crcByte c x = Nat.iterate crcShift 8 (c ^^^ x) := by
  rw [crcByte, iterate_crcRound_joinBits, extractLsb'_joinBits_zero]

/-- The polynomial has a constant term, so no round turns another byte into 0. -/
theorem crcShift_eq_zero_iff : ∀ y : Byte, crcShift y = 0 ↔ y = 0 := by
  decide

theorem iterate_crcShift_eq_zero_iff (n : Nat) (y : Byte) : Nat.iterate crcShift n y = 0 ↔ y = 0 := by
  induction n generalizing y with
  | zero => rfl
  | succ n ih => rw [Function.iterate_succ_apply, ih, crcShift_eq_zero_iff]

theorem crcByte_eq_zero_iff (c x : Byte) : crcByte c x = 0 ↔ c = x := by
  rw [crcByte_eq, iterate_crcShift_eq_zero_iff]
  exact BitVec.xor_eq_zero_iff

theorem crcOk_iff (a b c : Byte) : crcOk a b c = true ↔ crc8 [a, b, c] = 0 := decide_eq_true_iff

/-- Settles O54: the last byte of a residue is compared with the CRC before it; the check values are evaluated in the 8-bit
form. -/
theorem crcResidueIsTheCheck : Obligations.CrcResidueIsTheCheck := by
  refine ⟨fun a b c => (crcOk_iff a b c).trans (crcByte_eq_zero_iff (crc8 [a, b]) c), ?_⟩
  simp [crc8, crcByte_eq, crcShift, Nat.iterate]

end Sys2Proof.Machine
end

section
/-! SUPPORT. Parse_POWER (R236 to R242): one equation per outcome, in numbers. -/

namespace Sys2Proof.Machine

open Sys2Proof.Spec

/-! ## The payload and the two checks (R238 to R241) -/

/-- raw16 of the frame in BUF (R238). -/
def payload (s : State) : BitVec 16 := joinBits 16 (byte s 2) (byte s 1)

/-- corr of the frame in BUF (R241). -/
def correctedPayload (s : State) : BitVec 16 := payload s - readTxid s

theorem payload_toNat (s : State) : (payload s).toNat = (byte s 2).toNat * 256 + (byte s 1).toNat :=
  joinBits_toNat _ _ (by decide)

theorem correctedPayload_toNat {s : State} (hp : s.params.proto = .power) :
    (correctedPayload s).toNat = ((byte s 2).toNat * 256 + (byte s 1).toNat + 65536 - s.txid.toNat) % 65536 := by
  have htxid := s.txid.isLt
  rw [correctedPayload, readTxid, if_pos hp, BitVec.toNat_sub, payload_toNat]
  omega

theorem extractLsb'_eq_ofNat_div {w : Nat} (start len : Nat) (x : BitVec w) :
    x.extractLsb' start len = BitVec.ofNat len (x.toNat / 2 ^ start) := by
  rw [BitVec.extractLsb', Nat.shiftRight_eq_div_pow]

/-- CrcOk(f[1], f[2], f[3]) of the frame in BUF (R240). -/
def DirectOk (s : State) : Prop := crc8 [byte s 1, byte s 2, byte s 3] = 0

/-- CrcOk(lo, hi, f[3]) of the frame in BUF (R241). -/
def CorrectedOk (s : State) : Prop :=
  crc8 [BitVec.ofNat 8 (correctedPayload s).toNat, BitVec.ofNat 8 ((correctedPayload s).toNat / 256), byte s 3] = 0

/-! ## Extract (R242) -/

/-- The 14-bit field of a payload is 0 exactly when the number it stands for is. -/
theorem ofNat_field_eq_zero_iff (corr : BitVec 16) : BitVec.ofNat 14 (corr.toNat / 4) = 0#14 ↔ corr.toNat / 4 = 0 := by
  have hlt := corr.isLt
  rw [← BitVec.toNat_inj, BitVec.toNat_ofNat, BitVec.toNat_ofNat]
  omega

theorem extractPower_interval {corr : BitVec 16} (hty : corr.toNat % 4 = 1) (hne : corr.toNat / 4 ≠ 0) (s : State) :
    extractPower corr s =
      ({ s with power := { s.power with pint := BitVec.ofNat 14 (corr.toNat / 4) }, dirty := s.dirty ||| 0x01 },
        .frameOk) := by
  have hfield := mt (ofNat_field_eq_zero_iff corr).mp hne
  simp [extractPower, extractLsb'_eq_ofNat_div, hty, hfield, setDirty, BitVec.twoPow]

theorem extractPower_temperature {corr : BitVec 16} (hty : corr.toNat % 4 = 2) (s : State) :
    extractPower corr s =
      ({ s with
          power := { s.power with
            tcode := BitVec.ofNat 8 (corr.toNat / 256)
            tcal := interpByte s.params.calTable (BitVec.ofNat 8 (corr.toNat / 256))
            batt := decide (BitVec.ofNat 8 corr.toNat &&& s.params.pmBattMask ≠ 0) }
          dirty := s.dirty ||| 0x06 }, .frameOk) := by
  simp [extractPower, extractLsb'_eq_ofNat_div, hty, setDirty, BitVec.or_assoc, BitVec.twoPow]

theorem extractPower_energy {corr : BitVec 16} (hty : corr.toNat % 4 = 3) (s : State) :
    extractPower corr s =
      ({ s with power := { s.power with energy := BitVec.ofNat 14 (corr.toNat / 4) }, dirty := s.dirty ||| 0x08 },
        .frameOk) := by
  simp [extractPower, extractLsb'_eq_ofNat_div, hty, setDirty, BitVec.twoPow]

theorem extractPower_partial {corr : BitVec 16}
    (hty : corr.toNat % 4 = 0 ∨ (corr.toNat % 4 = 1 ∧ corr.toNat / 4 = 0)) (s : State) :
    extractPower corr s = (s, .framePartial) := by
  rcases hty with hty | ⟨hty, hzero⟩
  · simp [extractPower, hty]
  · have hfield := (ofNat_field_eq_zero_iff corr).mpr hzero
    simp [extractPower, extractLsb'_eq_ofNat_div, hty, hfield]

theorem extractPower_txid (corr : BitVec 16) (s : State) : (extractPower corr s).1.txid = s.txid := by
  unfold extractPower
  dsimp only
  split
  · split <;> rfl
  all_goals rfl

/-! ## The outcomes of the parser -/

theorem parsePower_direct {s : State} (hp : s.params.proto = .power) (h : DirectOk s) :
    parsePower s = ({ s with txid := payload s, dirty := s.dirty ||| 0x10 }, .idCaptured) := by
  have hok : crcOk (byte s 1) (byte s 2) (byte s 3) = true := (crcOk_iff _ _ _).mpr h
  have hparse : parsePower s = (setDirty 4 (writeTxid (payload s) s), .idCaptured) := if_pos hok
  rw [hparse, writeTxid_eq]
  simp [hp, setDirty, BitVec.twoPow]

theorem correctedOk_iff (s : State) :
    CorrectedOk s ↔
      crcOk ((correctedPayload s).extractLsb' 0 8) ((correctedPayload s).extractLsb' 8 8) (byte s 3) = true := by
  rw [crcOk_iff, CorrectedOk, extractLsb'_eq_ofNat_div, extractLsb'_eq_ofNat_div, Nat.pow_zero, Nat.div_one]
  rfl

theorem parsePower_checkFail {s : State} (hd : ¬ DirectOk s) (hc : ¬ CorrectedOk s) :
    parsePower s = (s, .checkFail) := by
  rw [correctedOk_iff, Bool.not_eq_true] at hc
  exact (if_neg (mt (crcOk_iff _ _ _).mp hd)).trans (if_pos hc)

theorem parsePower_corrected {s : State} (hd : ¬ DirectOk s) (hc : CorrectedOk s) :
    parsePower s = extractPower (correctedPayload s) s := by
  have hok : ¬ crcOk ((correctedPayload s).extractLsb' 0 8) ((correctedPayload s).extractLsb' 8 8) (byte s 3) = false := by
    simpa using (correctedOk_iff s).mp hc
  exact (if_neg (mt (crcOk_iff _ _ _).mp hd)).trans (if_neg hok)

theorem parsePower_txid {s : State} (hd : ¬ DirectOk s) : (parsePower s).1.txid = s.txid := by
  by_cases hc : CorrectedOk s
  · rw [parsePower_corrected hd hc, extractPower_txid]
  · rw [parsePower_checkFail hd hc]

/-! ## The FEED that completes a frame -/

/-- Settles O53, by the outcomes of the parser. -/
theorem powerFrameParse : Obligations.PowerFrameParse := by
  intro s t d evt hp hexec hresp
  obtain rfl := eq_fedState_of_exec_feed hexec
  obtain ⟨hready, rfl⟩ : (feedStep d s).ready = true ∧ (feedStep d s).evt = evt := by simpa [fedState] using hresp
  obtain ⟨v, hsame, hstate, hevt⟩ := parsed_of_ready hready
  have hpv : v.params.proto = .power := by rw [hsame.params, hp]
  have hparse : parseFrame v = parsePower v := by simp [parseFrame, hpv]
  have hbyte (e : Event) (k : Nat) : byte (fedState (parsePower v).1 true e) k = byte v k := by
    rw [byte, byte, fedState, (parsePower_sameCore v).acc]
  rw [hstate, hevt, hparse, hready, ← hsame.power, ← hsame.dirty, ← hsame.txid, ← hsame.params]
  simp only [hbyte, ← correctedPayload_toNat hpv]
  refine ⟨fun hd => ?_, fun hd => ?_, fun hd hc => ?_, fun hd hc hty hne => ?_, fun hd hc hty => ?_, fun hd hc hty => ?_,
    fun hd hc hty => ?_⟩
  · rw [parsePower_direct hpv hd]
    exact ⟨rfl, payload_toNat v, rfl, rfl⟩
  · exact parsePower_txid hd
  · rw [parsePower_checkFail hd hc]
    exact ⟨rfl, rfl, rfl⟩
  · rw [parsePower_corrected hd hc, extractPower_interval hty hne]
    exact ⟨rfl, rfl, rfl⟩
  · rw [parsePower_corrected hd hc, extractPower_temperature hty]
    exact ⟨rfl, rfl, rfl⟩
  · rw [parsePower_corrected hd hc, extractPower_energy hty]
    exact ⟨rfl, rfl, rfl⟩
  · rw [parsePower_corrected hd hc, extractPower_partial hty]
    exact ⟨rfl, rfl, rfl⟩

end Sys2Proof.Machine
end

section
/-! SUPPORT. The canonical pulse sequence of a POWER frame (R235, R245). -/

namespace Sys2Proof.Machine

open Sys2Proof.Spec

/-! ## Runs that complete a frame with their last pulse -/

/-- A frame of at most 8 bytes, the least CAP of R5, that a run completes is in BUF, and its length in FLEN. -/
theorem CompletesAtLast.frame {f : List Byte} {ds : List Duration} {s : State} (h : CompletesAtLast true (airBits f) ds s)
    (hi : StateInv s) (hcap : s.params.capOk = true) (hf : f.length ≤ 8) :
    let t := feedAll ds s
    t.dec.dstate = .complete ∧ t.fv = true ∧ t.flen = BitVec.ofNat 8 f.length ∧ t.acc.buf.take f.length = f := by
  have hcompleted := h.1
  have hroom : f.length ≤ (feedAll ds s).params.cap.toNat := by
    simp only [Params.capOk, Bool.and_eq_true, decide_eq_true_eq] at hcap
    rw [feedAll_params]
    bv_omega
  have hbuf := take_buf_of_completed_airBits hcompleted (stateInv_feedAll ds hi) hroom
  obtain ⟨hcomplete, hfv, hflen, hpos, -⟩ := hcompleted
  refine ⟨hcomplete, hfv, ?_, hbuf⟩
  rw [airBits_length, Nat.mul_div_cancel_left _ (by decide)] at hpos
  rw [hflen, ← hpos, BitVec.ofNat_toNat, BitVec.setWidth_eq]

/-! ## The pulses of a frame under the reference thresholds (R231, R245) -/

/-- The low phase of a bit (R245). -/
def powerLow (b : Bool) : Duration := if b then 500 else 1000

theorem powerSequence_succ (n : Nat) (highs : List Duration) (f : List Byte) :
    powerSequence (n + 1) highs f =
      500 :: (List.replicate n 500 ++ 1500 :: alternate highs ((airBits f).map powerLow)) := rfl

theorem pmShort_of_isReference {p : Params} (h : p.isReference = true) : p.pmShort = 750 :=
  congrArg Params.pmShort (reference_of_isReference h)

theorem pmDelim_of_isReference {p : Params} (h : p.isReference = true) : p.pmDelim = 1250 :=
  congrArg Params.pmDelim (reference_of_isReference h)

theorem pmPreMin_of_isReference {p : Params} (h : p.isReference = true) : p.pmPreMin = 8 :=
  congrArg Params.pmPreMin (reference_of_isReference h)

theorem power_rev_of_isReference {p : Params} (hp : p.proto = .power) (h : p.isReference = true) : p.rev = true := by
  rw [Params.rev, hp]
  exact congrArg Params.revPower (reference_of_isReference h)

theorem powerLow_short {p : Params} (h : p.isReference = true) (b : Bool) : decide (powerLow b < p.pmShort) = b := by
  rw [pmShort_of_isReference h]
  cases b <;> decide

/-! ## The bits (R234) -/

/-- A POWER instance of a quiet host that frames, holds the bits `l` and has taken `r` phases of the next one. -/
structure PowerFrames (l : List Bool) (r : Nat) (s : State) : Prop where
  quiet  : QuietState s
  proto  : s.params.proto = .power
  dstate : s.dec.dstate = .framing
  held   : heldBits s = l
  phase  : s.dec.phase.toNat = 2 * l.length + r

theorem PowerFrames.not_complete {l : List Bool} {r : Nat} {s : State} (h : PowerFrames l r s) :
    s.dec.dstate ≠ .complete := by
  rw [h.dstate]
  decide

theorem PowerFrames.high {l : List Bool} {s : State} (h : PowerFrames l 0 s) (d : Duration) :
    PowerFrames l 1 (after (.feed d) s) := by
  have hphase := h.phase
  have hbound := h.quiet.phase.power_bound h.proto h.dstate
  have hquiet := h.quiet.feed d
  obtain ⟨hstep, -⟩ := powerFramingStep s d h.proto h.dstate (by bv_omega) h.quiet.state.acc
  have hnext := after_eq_of_exec (hstep (by omega))
  rw [hnext] at hquiet ⊢
  refine ⟨hquiet, h.proto, h.dstate, h.held, ?_⟩
  simp only [fedState]
  bv_omega

/-- The low phase commits the bit; the 32nd one completes the frame. -/
theorem PowerFrames.low {l : List Bool} {s : State} (h : PowerFrames l 1 s) (b : Bool) :
    (l.length + 1 ≠ 32 → PowerFrames (l ++ [b]) 0 (after (.feed (powerLow b)) s)) ∧
      (l.length + 1 = 32 → Completed true (l ++ [b]) (after (.feed (powerLow b)) s)) := by
  have hphase := h.phase
  have hbound := h.quiet.phase.power_bound h.proto h.dstate
  have hquiet := h.quiet.feed (powerLow b)
  have hparams := (after_params_stickyIll (.feed (powerLow b)) s).1
  obtain ⟨-, -, hcommit⟩ := powerFramingStep s (powerLow b) h.proto h.dstate (by bv_omega) h.quiet.state.acc
  specialize hcommit (by omega) (h.quiet.room (.inr h.dstate))
  obtain ⟨t, hexec, htphase, -, -, hgoes, hdone⟩ := hcommit
  rw [after_eq_of_exec hexec] at hquiet hparams ⊢
  rw [powerLow_short h.quiet.reference, h.held, pmPulses_of_isReference h.quiet.reference] at hgoes hdone
  rw [power_rev_of_isReference h.proto h.quiet.reference] at hdone
  refine ⟨fun hl => ?_, fun hl => hdone (by bv_omega)⟩
  obtain ⟨hd, -, hheld⟩ := hgoes (by bv_omega)
  refine ⟨hquiet, hparams ▸ h.proto, hd, hheld, ?_⟩
  rw [htphase, List.length_append, List.length_singleton]
  bv_omega

theorem PowerFrames.completes {l bs : List Bool} {highs : List Duration} {s : State} (h : PowerFrames l 0 s)
    (hne : bs ≠ []) (hl : l.length + bs.length = 32) (hhighs : highs.length = bs.length) :
    CompletesAtLast true (l ++ bs) (alternate highs (bs.map powerLow)) s := by
  induction bs generalizing l highs s with
  | nil => exact absurd rfl hne
  | cons b bs ih =>
    obtain ⟨d, highs, rfl⟩ := List.exists_cons_of_length_eq_add_one hhighs
    have hlow := (h.high d).low b
    rw [List.map_cons, alternate_cons_cons]
    rw [List.length_cons] at hl hhighs
    refine .cons h.not_complete ?_
    by_cases hbs : bs = []
    · obtain rfl := hbs
      obtain rfl : highs = [] := by simpa using hhighs
      exact completesAtLast_singleton (h.high d).not_complete (hlow.2 (by simpa using hl))
    · have hpos := List.length_pos_iff.mpr hbs
      have hrest := ih (hlow.1 (by omega)) hbs (by simp; omega) (by simpa using hhighs)
      rw [List.append_assoc, List.singleton_append] at hrest
      exact .cons (h.high d).not_complete hrest

/-! ## The short pulses and the delimiter (R232, R233) -/

/-- A POWER instance of a quiet host that has counted `k` short pulses past the first one, PCOUNT saturating (R30). -/
structure PowerCounted (k : Nat) (s : State) : Prop where
  quiet  : QuietState s
  proto  : s.params.proto = .power
  dstate : s.dec.dstate = .preamble
  pcount : s.dec.pcount.toNat = min k 255

theorem PowerCounted.not_complete {k : Nat} {s : State} (h : PowerCounted k s) : s.dec.dstate ≠ .complete := by
  rw [h.dstate]
  decide

theorem powerCounted_first {s : State} (hi : StateInv s) (hp : s.params.proto = .power)
    (href : s.params.isReference = true) (hcap : s.params.capOk = true)
    (hd : s.dec.dstate = .idle ∨ s.dec.dstate = .complete) : PowerCounted 0 (after (.feed 500) s) := by
  have hstarts : Starts s.params 500 := by
    simp [Starts, hp, pmShort_of_isReference href]
  have hbegun := after_eq_of_exec ((feedFromIdleOrComplete s 500 hd).1 hstarts)
  have hstate := stateInv_after (.feed 500) hi
  rw [hbegun] at hstate ⊢
  exact ⟨⟨href, hcap, hstate, phaseInv_of_power hp (Nat.zero_le _), quietInv_of_preamble rfl rfl rfl⟩, hp, rfl, rfl⟩

theorem PowerCounted.short {k : Nat} {s : State} (h : PowerCounted k s) :
    PowerCounted (k + 1) (after (.feed 500) s) := by
  have hcount := h.pcount
  have hquiet := h.quiet.feed 500
  obtain ⟨hstep, -⟩ := powerPreambleStep s 500 h.proto h.dstate
  have hnext := after_eq_of_exec (hstep (by rw [pmShort_of_isReference h.quiet.reference]; decide))
  rw [hnext] at hquiet ⊢
  refine ⟨hquiet, h.proto, h.dstate, ?_⟩
  simp only [fedState, BitVec.toNat_ofNat]
  omega

/-- The delimiter enters Framing once PM_PRE_MIN short pulses have been counted. -/
theorem PowerCounted.delimiter {k : Nat} {s : State} (h : PowerCounted k s) (hk : 8 ≤ k) :
    PowerFrames [] 0 (after (.feed 1500) s) := by
  have hcount := h.pcount
  have hheld : heldBits s = [] := by rw [heldBits, h.quiet.quiet.preambleEmpty h.dstate]; rfl
  have hquiet := h.quiet.feed 1500
  obtain ⟨-, henter, -⟩ := powerPreambleStep s 1500 h.proto h.dstate
  have hnext := after_eq_of_exec (henter
    (by rw [pmShort_of_isReference h.quiet.reference]; decide)
    (by rw [pmDelim_of_isReference h.quiet.reference]; decide)
    (by rw [pmPreMin_of_isReference h.quiet.reference]; bv_omega))
  rw [hnext] at hquiet ⊢
  exact ⟨hquiet, h.proto, rfl, hheld, rfl⟩

theorem PowerCounted.completes {k n : Nat} {bs : List Bool} {highs : List Duration} {s : State}
    (h : PowerCounted k s) (hk : 8 ≤ k + n) (hbs : bs.length = 32) (hhighs : highs.length = 32) :
    CompletesAtLast true bs (List.replicate n 500 ++ 1500 :: alternate highs (bs.map powerLow)) s := by
  induction n generalizing k s with
  | zero =>
    have hne : bs ≠ [] := List.ne_nil_of_length_eq_add_one hbs
    exact .cons h.not_complete ((h.delimiter hk).completes hne (by simp [hbs]) (by rw [hhighs, hbs]))
  | succ n ih => exact .cons h.not_complete (ih h.short (by omega))

/-- Settles O57: the short pulses, the delimiter, the 32 bits one by one, and the frame's bytes from its bits. -/
theorem powerSequenceCompletesItsFrame : Obligations.PowerSequenceCompletesItsFrame := by
  intro s f n highs hi hp href hcap hd hf hn hhighs t
  have hbits : (airBits f).length = 32 := by rw [airBits_length, hf]
  obtain ⟨k, rfl⟩ : ∃ k, n = k + 1 := ⟨n - 1, by omega⟩
  have hseq := powerSequence_succ k highs f
  have hlength : (powerSequence (k + 1) highs f).length = k + 1 + 65 := by
    simp [hseq, hbits, hhighs]
  have hrun := (powerCounted_first hi hp href hcap hd).completes (n := k) (by omega) hbits hhighs
  have hparams := (after_params_stickyIll (.feed 500) s).1
  obtain ⟨hcomplete, hfv, hflen, hbuf⟩ := hrun.frame (stateInv_after _ hi) (hparams ▸ hcap) (by omega)
  rw [hf] at hflen hbuf
  refine ⟨hlength, hcomplete, hfv, hflen, hbuf, fun m hm hc => ?_⟩
  rw [← hlength] at hm
  exact hrun.eq_zero_of_take_cons hm hc

end Sys2Proof.Machine
end

section
/-! SUPPORT. What Interp answers (R262) at the ends of a bracket, along a bracket, and past the last anchor, for every table that
meets R260. -/

namespace Sys2Proof.Machine

/-! ## The interpolation between two anchors -/

theorem interpBetween_lo_code (lo hi : Anchor) : interpBetween lo hi lo.code = lo.value.toInt := by
  simp [interpBetween]

theorem interpBetween_hi_code {lo hi : Anchor} (h : lo.code < hi.code) :
    interpBetween lo hi hi.code = hi.value.toInt := by
  have hcodes : lo.code.toNat < hi.code.toNat := h
  rw [interpBetween, Int.mul_tdiv_cancel _ (by omega)]
  omega

/-- Truncation keeps the order of the numerators, so Interp follows the order of `(b - a) * (raw - x)`. -/
theorem interpBetween_le_of_mul_le {lo hi : Anchor} {raw raw' : BitVec 8} (h : lo.code < hi.code)
    (hmul : (hi.value.toInt - lo.value.toInt) * ((raw.toNat : Int) - lo.code.toNat) ≤
      (hi.value.toInt - lo.value.toInt) * ((raw'.toNat : Int) - lo.code.toNat)) :
    interpBetween lo hi raw ≤ interpBetween lo hi raw' := by
  have hcodes : lo.code.toNat < hi.code.toNat := h
  exact Int.add_le_add_left (Int.tdiv_le_tdiv (by omega) hmul) _

theorem interpBetween_mono {lo hi : Anchor} {raw raw' : BitVec 8} (h : lo.code < hi.code) (hraw : raw ≤ raw')
    (hval : lo.value.toInt ≤ hi.value.toInt) : interpBetween lo hi raw ≤ interpBetween lo hi raw' := by
  have hnat : raw.toNat ≤ raw'.toNat := hraw
  exact interpBetween_le_of_mul_le h (Int.mul_le_mul_of_nonneg_left (by omega) (by omega))

theorem interpBetween_anti {lo hi : Anchor} {raw raw' : BitVec 8} (h : lo.code < hi.code) (hraw : raw ≤ raw')
    (hval : hi.value.toInt ≤ lo.value.toInt) : interpBetween lo hi raw' ≤ interpBetween lo hi raw := by
  have hnat : raw.toNat ≤ raw'.toNat := hraw
  exact interpBetween_le_of_mul_le h (mul_le_mul_of_nonpos_left (by omega) (by omega))

theorem interpBetween_bounds_closed {lo hi : Anchor} {raw : BitVec 8} (hlo : lo.code ≤ raw) (hhi : raw ≤ hi.code) :
    min lo.value.toInt hi.value.toInt ≤ interpBetween lo hi raw ∧
      interpBetween lo hi raw ≤ max lo.value.toInt hi.value.toInt := by
  obtain hlt | rfl := Std.le_iff_lt_or_eq.mp hlo
  · exact interpBetween_bounds hlt hhi
  · simp [interpBetween_lo_code]

/-! ## The anchors of a table that meets R260 -/

theorem consecutive_mem_zip {t : CalTable} {pre post : List Anchor} {lo hi : Anchor}
    (h : t.anchors = pre ++ lo :: hi :: post) : (lo, hi) ∈ t.anchors.zip t.rest := by
  have hrest : t.rest = (pre ++ lo :: hi :: post).tail := by rw [← h]; rfl
  refine List.mem_of_getElem? (i := pre.length) (List.getElem?_zip_eq_some.mpr ⟨?_, ?_⟩)
  · simp [h]
  · simp [hrest]

theorem exists_predecessor_of_mem_rest {t : CalTable} {a : Anchor} (h : a ∈ t.rest) :
    ∃ lo, (lo, a) ∈ t.anchors.zip t.rest := by
  rw [← List.map_snd_zip (l₁ := t.anchors) (l₂ := t.rest) (by simp [CalTable.anchors])] at h
  obtain ⟨⟨lo, _⟩, hmem, rfl⟩ := List.mem_map.mp h
  exact ⟨lo, hmem⟩

theorem consecutive_code_lt {t : CalTable} {lo hi : Anchor} (h : t.wf = true) (hmem : (lo, hi) ∈ t.anchors.zip t.rest) :
    lo.code < hi.code :=
  codesAscend_of_wf h _ hmem

/-- R260.4: v_0 is -49. -/
theorem first_value_of_wf {t : CalTable} (h : t.wf = true) : t.first.value.toInt = -49 := by
  obtain ⟨-, -, hfirst, -, -⟩ := (calTable_wf_iff t).mp h
  exact of_decide_eq_true (Bool.and_eq_true_iff.mp hfirst).1

/-- R260.6: the last anchor has the value 127 and a code below 200. -/
theorem last_anchor_of_wf {t : CalTable} (h : t.wf = true) : t.last.value.toInt = 127 ∧ t.last.code < 200 := by
  obtain ⟨-, -, -, -, hlast⟩ := (calTable_wf_iff t).mp h
  obtain ⟨hvalue, hcode⟩ := Bool.and_eq_true_iff.mp hlast
  exact ⟨of_decide_eq_true hvalue, of_decide_eq_true hcode⟩

/-! ## Interp at the anchors and along a closed bracket -/

theorem interp_of_le_first (t : CalTable) {raw : BitVec 8} (h : raw ≤ t.first.code) :
    interp t raw = t.first.value.toInt :=
  if_pos h

/-- R263: Interp is exact at an anchor, which is the first one or closes the bracket its predecessor opens. -/
theorem interp_anchor_code {t : CalTable} {a : Anchor} (h : t.wf = true) (ha : a ∈ t.anchors) :
    interp t a.code = a.value.toInt := by
  obtain rfl | hrest := List.mem_cons.mp ha
  · exact interp_of_le_first t (BitVec.le_refl _)
  · obtain ⟨lo, hmem⟩ := exists_predecessor_of_mem_rest hrest
    have hlt := consecutive_code_lt h hmem
    rw [interp_of_bracket h hmem hlt (BitVec.le_refl _), interpBetween_hi_code hlt]

/-- `interp_of_bracket` with the lower end of the bracket included. -/
theorem interp_of_closed_bracket {t : CalTable} {lo hi : Anchor} {raw : BitVec 8} (h : t.wf = true)
    (hmem : (lo, hi) ∈ t.anchors.zip t.rest) (hlo : lo.code ≤ raw) (hhi : raw ≤ hi.code) :
    interp t raw = interpBetween lo hi raw := by
  obtain hlt | rfl := Std.le_iff_lt_or_eq.mp hlo
  · exact interp_of_bracket h hmem hlt hhi
  · rw [interp_anchor_code h (List.of_mem_zip hmem).1, interpBetween_lo_code]

/-! ## Past the last anchor -/

theorem CodesAscend.code_le_last {prev : Anchor} {rest : List Anchor} (h : CodesAscend prev rest) :
    prev.code ≤ (rest.getLastD prev).code := by
  induction rest generalizing prev with
  | nil => exact BitVec.le_refl _
  | cons a rest ih =>
    obtain ⟨hlt, hrest⟩ := codesAscend_cons.mp h
    rw [List.getLastD_cons]
    exact BitVec.le_trans (BitVec.le_of_lt hlt) (ih hrest)

theorem CodesAscend.interpAfter_of_last_lt {prev : Anchor} {rest : List Anchor} {raw : BitVec 8} (h : CodesAscend prev rest)
    (hraw : (rest.getLastD prev).code < raw) : interpAfter prev raw rest = (rest.getLastD prev).value.toInt := by
  induction rest generalizing prev with
  | nil => rfl
  | cons a rest ih =>
    obtain ⟨-, hrest⟩ := codesAscend_cons.mp h
    rw [List.getLastD_cons] at hraw ⊢
    have hle := hrest.code_le_last
    rw [interpAfter, if_neg (by bv_omega), ih hrest hraw]

/-- R262: no extrapolation above the last anchor. -/
theorem interp_of_last_lt {t : CalTable} {raw : BitVec 8} (h : t.wf = true) (hraw : t.last.code < raw) :
    interp t raw = t.last.value.toInt := by
  have hasc := codesAscend_of_wf h
  have hle : t.first.code ≤ t.last.code := hasc.code_le_last
  rw [interp, if_neg (by bv_omega)]
  exact hasc.interpAfter_of_last_lt hraw

/-! ## The obligations -/

/-- Settles O27: past the last anchor, up to the first one, and in the bracket the search finds. -/
theorem interpByBracket : Obligations.InterpByBracket := fun t h =>
  ⟨fun _ hraw => interp_of_last_lt h hraw, fun _ hraw => interp_of_le_first t hraw,
    fun _ _ _ _ _ hanchors hlo hhi => interp_of_bracket h (consecutive_mem_zip hanchors) hlo hhi⟩

/-- Settles O28: along a closed bracket Interp is the interpolation of its two anchors, which stays between their values and
follows their order. -/
theorem interpProperties : Obligations.InterpProperties := by
  intro t h
  refine ⟨fun a => interp_anchor_code h, fun raw => ?_, ?_, fun raw => interp_of_last_lt h⟩
  · obtain ⟨hlo, hhi⟩ := interp_bounds t raw
    exact ⟨hlo, Int.le_of_lt_add_one hhi⟩
  · intro pre post lo hi raw raw' hanchors hlo hraw hhi
    have hmem := consecutive_mem_zip hanchors
    have hcodes := consecutive_code_lt h hmem
    have hraw_hi := BitVec.le_trans hraw hhi
    rw [interp_of_closed_bracket h hmem hlo hraw_hi, interp_of_closed_bracket h hmem (BitVec.le_trans hlo hraw) hhi]
    obtain ⟨hmin, hmax⟩ := interpBetween_bounds_closed hlo hraw_hi
    exact ⟨hmin, hmax, interpBetween_mono hcodes hraw, interpBetween_anti hcodes hraw⟩

/-- Settles O29: 0 is at or below the first anchor, 10 is an anchor, 15 lies in the bracket R260 fixes, 200 is past the last. -/
theorem interpExamplesOfAnyTable : Obligations.InterpExamplesOfAnyTable := by
  intro t h
  obtain ⟨ten, _, hmem, hcode, hvalue, -, -⟩ := middle_anchors_of_wf h
  obtain ⟨hlastValue, hlastCode⟩ := last_anchor_of_wf h
  refine ⟨?_, ?_, interp_fifteen h, ?_⟩
  · rw [interp_of_le_first t (Nat.zero_le _), first_value_of_wf h]
  · rw [← hcode, interp_anchor_code h (List.of_mem_zip hmem).1, hvalue]
  · rw [interp_of_last_lt h hlastCode, hlastValue]

end Sys2Proof.Machine
end

section
/-! SUPPORT. The step answers a next state in each of its cases (R284, R291, R295, R314). -/

namespace Sys2Proof.Machine

/-- With no command issued the block waits (R291, R295). -/
theorem step_of_commands_nil {s : State} (h : s.commands = []) : step s = .next s := by
  simp [step, nextCommand, h]

/-- Settles O9: the step waits on the empty stream, refuses a word with no decoding, and runs a decoded command, which never
stops. -/
theorem stepNeverStops : Obligations.StepNeverStops := by
  refine ⟨fun s => ?_, fun _ => step_of_commands_nil⟩
  cases hs : s.commands with
  | nil => exact ⟨s, step_of_commands_nil hs⟩
  | cons w rest =>
    cases hw : decode w with
    | error e => exact ⟨_, step_of_decode_error hs hw⟩
    | ok i => exact ⟨_, (stepRunsDecodedCommand s w rest i hs hw).trans (exec_eq_next_after i _)⟩

end Sys2Proof.Machine
end

section
/-! SUPPORT. Power-on reset (R300): the values it leaves that are no literal of its own, and the invariants it establishes. -/

namespace Sys2Proof.Machine

/-! ## The values -/

theorem Memory.read_replicate_zero (n i : Nat) : Memory.read (List.replicate n 0) i = 0 := by
  rw [Memory.read, List.getD_eq_getElem?_getD, List.getElem?_getD_replicate_default_eq]

/-- In a POWER instance the seed; elsewhere TXID is hard-wired to 0 (R41). -/
theorem readTxid_powerOn (p : Params) :
    readTxid (State.powerOn p) = if p.proto = .power then p.txidSeed else 0 := by
  by_cases hp : p.proto = .power <;> simp [readTxid, State.powerOn, hp]

/-- Settles O12: BUF is read byte by byte, TXID by PROTO; the other values are those POR assigns. -/
theorem powerOnValues : Obligations.PowerOnValues := by
  intro p
  exact ⟨rfl, rfl, List.length_replicate, Memory.read_replicate_zero p.cap.toNat, rfl, rfl, rfl, rfl, rfl, rfl,
    rfl, rfl, rfl, rfl, rfl, rfl, rfl, rfl, rfl, readTxid_powerOn p, rfl, rfl⟩

/-! ## The invariants -/

theorem accInv_powerOn (p : Params) : AccInv (State.powerOn p) where
  bufLen := Memory.powerOn_wf p
  posLe := Nat.zero_le _
  fullNbits _ := rfl
  totalEq := rfl
  unfilled h := absurd rfl h

theorem protoInv_powerOn (p : Params) : ProtoInv (State.powerOn p) where
  dirtyReserved := BitVec.zero_and
  txidZero hp := if_neg hp
  rainZero _ := ⟨rfl, rfl⟩
  hiclassNone _ := rfl
  probeZero _ := rfl
  stationZero _ := rfl
  powerZero _ := rfl
  chcodeDefined := show (0 : BitVec 2) ≠ 1 by decide

theorem stateInv_powerOn (p : Params) : StateInv (State.powerOn p) :=
  ⟨accInv_powerOn p, protoInv_powerOn p, frameInv_of_reset rfl (Nat.zero_le _)⟩

theorem phaseInv_powerOn (p : Params) : PhaseInv (State.powerOn p) :=
  phaseInv_of_outside_frame (.inl rfl)

/-- No frame can be retrieved after POR, so none has a wrong length (R31). -/
theorem quietInv_powerOn (p : Params) : QuietInv (State.powerOn p) :=
  quietInv_of_outside_frame (.inl rfl) fun hv => Bool.noConfusion hv

/-- Settles O14: POR leaves Idle with nothing held and no frame; the reset instance is one of its instances. -/
theorem invariantAtPowerOn : Obligations.InvariantAtPowerOn :=
  ⟨fun p => ⟨stateInv_powerOn p, phaseInv_powerOn p, quietInv_powerOn p⟩,
    stateInv_powerOn _, phaseInv_powerOn _, quietInv_powerOn _⟩

end Sys2Proof.Machine
end

section
/-! SUPPORT. Resync pulses (R314): a pulse in no window of its protocol is rejected where the protocol classifies it, and a POWER
frame, which rejects nothing, ends within its 64 phases. -/

namespace Sys2Proof.Machine

open Sys2Proof.Spec

/-- Every reject returns to Idle (R113). -/
theorem dstate_of_reject {d : Duration} {s : State} (h : ∃ e, feedStep d s = reject e s) :
    (after (.feed d) s).dec.dstate = .idle := by
  obtain ⟨e, he⟩ := h
  rw [(after_feed_params_dec d s).2, he]
  rfl

/-! ## PROBE -/

theorem probe_resync_windows {p : Params} (href : p.isReference = true) :
    prSync p 50 = false ∧ prClass p 50 = .none := by
  have hsync : p.prSync = ⟨500, 700⟩ := congrArg Params.prSync (reference_of_isReference href)
  have hlong : p.prLong = ⟨300, 500⟩ := congrArg Params.prLong (reference_of_isReference href)
  have hshort : p.prShort = ⟨100, 300⟩ := congrArg Params.prShort (reference_of_isReference href)
  rw [prSync, prClass, hsync, hlong, hshort]
  decide

/-- A PROBE instance classifies every pulse, so the resync pulse is rejected in every state (R172 to R174). -/
theorem probe_resync_rejected {s : State} (hp : s.params.proto = .probe) (href : s.params.isReference = true) :
    ∃ e, feedStep 50 s = reject e s := by
  obtain ⟨hsync, hclass⟩ := probe_resync_windows href
  have hstarts : ¬ Starts s.params 50 := by simpa [Starts, hp, prSync, inWindow] using hsync
  cases hd : s.dec.dstate with
  | idle => exact ⟨_, (feedStep_of_idle_or_complete (.inl hd) 50).2 hstarts⟩
  | complete => exact ⟨_, (feedStep_of_idle_or_complete (.inr hd) 50).2 hstarts⟩
  | preamble =>
    rw [feedStep_probe_preamble hp hd]
    by_cases hn : s.dec.pcount < s.params.prPreN
    · exact ⟨_, probePreamble_not_sync hn hsync⟩
    · exact ⟨_, probePreamble_no_class (BitVec.not_lt.mp hn) hclass⟩
  | framing =>
    rw [feedStep_probe_framing hp hd]
    exact ⟨_, probeFraming_no_class hclass⟩

/-! ## STATION -/

theorem station_resync_windows {p : Params} (href : p.isReference = true) :
    stSync p 50 = false ∧ stOne p 50 = false ∧ stZero p 50 = false := by
  have hsync : p.stSync = ⟨575, 725⟩ := congrArg Params.stSync (reference_of_isReference href)
  have hone : p.stOne = ⟨375, 525⟩ := congrArg Params.stOne (reference_of_isReference href)
  have hzero : p.stZero = ⟨175, 325⟩ := congrArg Params.stZero (reference_of_isReference href)
  rw [stSync, stOne, stZero, hsync, hone, hzero]
  decide

/-- The phase counted after an odd one is even, also past 255 (R204; assumption 4). -/
theorem countPhase_even_of_odd {s : State} (h : s.dec.phase.toNat % 2 = 1) :
    (countPhase s).dec.phase.toNat % 2 = 0 := by
  by_cases hlast : s.dec.phase = 255
  · obtain ⟨v, hv, hcount⟩ := countPhase_of_last hlast
    rw [hcount]
    exact hv
  · rw [countPhase_of_ne hlast]
    bv_omega

/-- A STATION instance classifies every pulse but a low phase (R202 to R204). -/
theorem station_resync_rejected {s : State} (hp : s.params.proto = .station) (href : s.params.isReference = true)
    (hhigh : s.dec.dstate = .framing → s.dec.phase.toNat % 2 = 0) : ∃ e, feedStep 50 s = reject e s := by
  obtain ⟨hsync, hone, hzero⟩ := station_resync_windows href
  have hstarts : ¬ Starts s.params 50 := by simpa [Starts, hp, stSync, inWindow] using hsync
  cases hd : s.dec.dstate with
  | idle => exact ⟨_, (feedStep_of_idle_or_complete (.inl hd) 50).2 hstarts⟩
  | complete => exact ⟨_, (feedStep_of_idle_or_complete (.inr hd) 50).2 hstarts⟩
  | preamble =>
    rw [feedStep_station_preamble hp hd]
    exact ⟨_, stationPreamble_reject hsync (by rw [hone, hzero]; simp)⟩
  | framing =>
    rw [feedStep_station_framing hp hd]
    exact ⟨_, stationFraming_no_bit (hhigh hd) (stationBit_eq_none hone hzero)⟩

/-- One resync pulse is taken as a low phase or rejected, so no low phase is due after it. -/
theorem station_high_due_after_resync {s : State} (hp : s.params.proto = .station)
    (href : s.params.isReference = true) (hframing : (after (.feed 50) s).dec.dstate = .framing) :
    (after (.feed 50) s).dec.phase.toNat % 2 = 0 := by
  by_cases hlow : s.dec.dstate = .framing ∧ s.dec.phase.toNat % 2 = 1
  · obtain ⟨hd, hodd⟩ := hlow
    rw [(after_feed_params_dec 50 s).2, feedStep_station_framing hp hd, stationFraming_low hodd]
    exact countPhase_even_of_odd hodd
  · have hhigh (hd : s.dec.dstate = .framing) := (Nat.mod_two_eq_zero_or_one _).resolve_right fun h => hlow ⟨hd, h⟩
    rw [dstate_of_reject (station_resync_rejected hp href hhigh)] at hframing
    cases hframing

/-! ## POWER -/

/-- 1000 µs is neither short nor a delimiter (R231), so it is rejected wherever a POWER instance does not frame (R232, R233). -/
theorem power_resync_rejected {s : State} (hp : s.params.proto = .power) (href : s.params.isReference = true)
    (hd : s.dec.dstate ≠ .framing) : ∃ e, feedStep 1000 s = reject e s := by
  have hshort : ¬ 1000 < s.params.pmShort := by rw [pmShort_of_isReference href]; decide
  have hdelim : ¬ s.params.pmDelim < 1000 := by rw [pmDelim_of_isReference href]; decide
  have hstarts : ¬ Starts s.params 1000 := by simpa only [Starts, hp] using hshort
  cases hd' : s.dec.dstate with
  | idle => exact ⟨_, (feedStep_of_idle_or_complete (.inl hd') 1000).2 hstarts⟩
  | complete => exact ⟨_, (feedStep_of_idle_or_complete (.inr hd') 1000).2 hstarts⟩
  | preamble =>
    rw [feedStep_power_preamble hp hd']
    exact ⟨_, powerPreamble_reject hshort fun h => hdelim h.1⟩
  | framing => exact absurd hd' hd

/-- A pulse in a POWER frame ends the frame or counts one phase, whatever its duration (R234). -/
theorem power_framing_counts {s : State} (hp : s.params.proto = .power) (hd : s.dec.dstate = .framing)
    (hphase : s.dec.phase.toNat < 255) (d : Duration) (hframing : (after (.feed d) s).dec.dstate = .framing) :
    (after (.feed d) s).dec.phase.toNat = s.dec.phase.toNat + 1 := by
  rw [(after_feed_params_dec d s).2, feedStep_power_framing hp hd] at hframing ⊢
  rw [← countPhase_toNat hphase]
  rcases powerFraming_cases d s hp with ⟨-, h⟩ | ⟨-, -, h⟩ | ⟨-, hroom, ⟨-, h⟩ | ⟨-, h⟩⟩ <;> rw [h] at hframing ⊢
  · cases hframing
  · rw [framedBit_dec _ hroom]
  · rw [completeFrame_dstate] at hframing
    cases hframing

/-- A POWER instance with at most `n` phases of its frame left, if it frames, is in Idle after `n + 1` resync pulses: those
phases at the most, and one pulse that is rejected. -/
theorem power_idle_after_resync {s : State} (hp : s.params.proto = .power) (href : s.params.isReference = true)
    (hi : PhaseInv s) (n : Nat) (hleft : s.dec.dstate = .framing → 64 ≤ s.dec.phase.toNat + n) :
    (feedAll (List.replicate (n + 1) 1000) s).dec.dstate = .idle := by
  induction n generalizing s with
  | zero =>
    refine dstate_of_reject (power_resync_rejected hp href fun hd => ?_)
    have hbound := hi.power_bound hp hd
    have hend := hleft hd
    omega
  | succ n ih =>
    have hparams := (after_params_stickyIll (.feed 1000) s).1
    rw [List.replicate_succ, feedAll_cons]
    refine ih (hparams ▸ hp) (hparams ▸ href) (phaseInv_after _ href hi) fun hframing => ?_
    by_cases hd : s.dec.dstate = .framing
    · have hbound := hi.power_bound hp hd
      have hend := hleft hd
      have hcount := power_framing_counts hp hd (by omega) 1000 hframing
      omega
    · rw [dstate_of_reject (power_resync_rejected hp href hd)] at hframing
      cases hframing

/-- Settles O58: PROBE rejects the pulse in every state, STATION once no low phase is due, POWER once its frame has ended. -/
theorem resyncPulsesReachIdle : Obligations.ResyncPulsesReachIdle := by
  refine ⟨fun s hp href => ?_, fun s hp href => ?_, fun s hp href _ hi => ?_⟩
  · exact dstate_of_reject (probe_resync_rejected hp href)
  · have hparams := (after_params_stickyIll (.feed 50) s).1
    exact dstate_of_reject
      (station_resync_rejected (hparams ▸ hp) (hparams ▸ href) (station_high_due_after_resync hp href))
  · exact power_idle_after_resync hp href hi 64 fun _ => Nat.le_add_left 64 _

end Sys2Proof.Machine
end
